-- ==== Sys2Proof/Word.lean ====
section
/-! DEFINITION. The word types of PFD (00_scope.md R6): bytes, 16-, 32- and 64-bit unsigned words. -/

namespace Sys2Proof

/-- A byte, the unit of every memory space (00_scope.md R5, R6). -/
abbrev Byte := BitVec 8

/-- A 16-bit value of a Background or Transparency payload (10_state.md R27, R28). -/
abbrev Half := BitVec 16

/-- A 32-bit value: chunk length, tag, width, height, host register (00_scope.md R5). -/
abbrev Word32 := BitVec 32

/-- An offset or length register, `OFFW` bits wide (00_scope.md R5). -/
abbrev Word64 := BitVec 64

end Sys2Proof
end

