-- ==== Sys2Proof/Config.lean ====
section
/-! DEFINITION. What 00_scope.md R5 makes a parameter of the block. (`EXCESS_POLICY` is the register bit
`CFG.EXCESS_REJECT` of State, 10_state.md R36.) -/

namespace Sys2Proof

/-- What the external decompressor answers (43_decompressor.md R185). -/
inductive InflateResult where
  /-- the fully expanded buffer -/
  | ok (bytes : List Byte)
  /-- corrupt or truncated input -/
  | err
  deriving DecidableEq, Repr, Inhabited

/-- The decompressor `Inflate` (43_decompressor.md R185, 93_implementation_defined.md U4): an uninterpreted total
function, of which nothing is known but that it is a function. Log 3. -/
opaque Config.inflate : List Byte → InflateResult

/-- `ZTXT_TAG` (00_scope.md R5, 30_encoding.md R93, 92_eei_decisions.md D30): the default, the source's literal
"zTXT". The decoder takes the tag as an argument, so that a claim can be made for another value. Log 15. -/
def Config.ztxtTag : Word32 := 0x7A545854#32

/-- `PAL_MAX` (00_scope.md R5, 92_eei_decisions.md D31): the most palette entries one chunk can carry. -/
def Config.palMax : Nat := 1431655765

/-- Every buffer length is below this bound (00_scope.md R5 `OFFW`, 92_eei_decisions.md D2). -/
def Config.lengthBound : Nat := 2 ^ 63

end Sys2Proof
end

