-- ==== Sys2Proof/Syntax.lean ====
section
/-! DEFINITION. The instructions of PFD (00_scope.md R3): the signature, one chunk (selected by its type tag), one
scanline (selected by its filter-type byte). One constructor per row of spec/opcode_table.json. -/

namespace Sys2Proof

/-- An instruction as the decoder delivers it. A chunk carries its payload; its length field is the payload's length
(30_encoding.md R91), and its checksum is no operand, since no rule reads it (40_framing.md R126). A scanline carries
nothing: its operands are bytes of FBUF and OBUF found by position (44_defilter.md R203). -/
inductive Instr where
  /-- SIG: the 8-byte file signature (40_framing.md R121) -/
  | sig
  /-- IHDR: header (41_chunk_decoders.md R140) -/
  | ihdr (payload : List Byte)
  /-- PLTE: palette (R141) -/
  | plte (payload : List Byte)
  /-- IDAT: compressed image data (R142) -/
  | idat (payload : List Byte)
  /-- IEND: end of the chunk stream (R143) -/
  | iend (payload : List Byte)
  /-- bKGD: background (R144) -/
  | bkgd (payload : List Byte)
  /-- tRNS: transparency (R145) -/
  | trns (payload : List Byte)
  /-- cHRM: chromaticity, ignorable (R146) -/
  | chrm (payload : List Byte)
  /-- gAMA: gamma, ignorable (R147) -/
  | gama (payload : List Byte)
  /-- hIST: histogram, ignorable (R148) -/
  | hist (payload : List Byte)
  /-- pHYs: physical dimensions, ignorable (R149) -/
  | phys (payload : List Byte)
  /-- sBIT: significant bits, ignorable (R150) -/
  | sbit (payload : List Byte)
  /-- tEXt: text, ignorable (R151) -/
  | text (payload : List Byte)
  /-- tIME: timestamp, ignorable (R152) -/
  | time (payload : List Byte)
  /-- zTXT: compressed text, ignorable (R153) -/
  | ztxt (payload : List Byte)
  /-- NONE: scanline of filter type 0 (44_defilter.md R204) -/
  | rowNone
  /-- SUB: scanline of filter type 1 (R205) -/
  | rowSub
  /-- UP: scanline of filter type 2 (R206) -/
  | rowUp
  /-- AVG: scanline of filter type 3 (R207) -/
  | rowAvg
  /-- PAETH: scanline of filter type 4 (R208) -/
  | rowPaeth
  deriving DecidableEq, Repr

end Sys2Proof
end

