-- ==== Sys2Proof/WellFormed.lean ====
section
/-! DEFINITION. Which instructions have an encoding: the payload's length must fit the 32-bit length field
(30_encoding.md R91, R92). No other length is refused here: the fixed payload lengths are checked after dispatch, by
the meaning, which raises the spec's error for them (30_encoding.md R103). -/

namespace Sys2Proof

/-- The payload of a chunk instruction; the other instructions have none. -/
def Instr.payload : Instr → List Byte
  | .sig => []
  | .ihdr p => p
  | .plte p => p
  | .idat p => p
  | .iend p => p
  | .bkgd p => p
  | .trns p => p
  | .chrm p => p
  | .gama p => p
  | .hist p => p
  | .phys p => p
  | .sbit p => p
  | .text p => p
  | .time p => p
  | .ztxt p => p
  | .rowNone => []
  | .rowSub => []
  | .rowUp => []
  | .rowAvg => []
  | .rowPaeth => []

/-- The length field holds every value 0 to 2^32-1 and no other (30_encoding.md R92). -/
def WellFormed (i : Instr) : Bool := decide (i.payload.length < 2 ^ 32)

end Sys2Proof
end

