-- ==== Sys2Proof/Decode.lean ====
section
/-! DEFINITION. Byte order, the decoder of the three formats (30_encoding.md R90 to R101) and the encoder. The phase of
the run selects the format (40_framing.md R121, R129; 44_defilter.md R202), so the decoder takes it as an argument. -/

namespace Sys2Proof

/-! ## Byte order (20_memory.md R65, R66) -/

/-- `be16` (00_scope.md R6): the byte at the lower offset is the more significant. -/
def be16 (b0 b1 : Byte) : Half := b0 ++ b1

/-- `be32` (00_scope.md R6): the byte at the lowest offset is the most significant. -/
def be32 (b0 b1 b2 b3 : Byte) : Word32 := b0 ++ b1 ++ b2 ++ b3

/-- The four bytes of a 32-bit field in order of rising offset (20_memory.md R65). -/
def bytes32 (w : Word32) : List Byte :=
  [w.extractLsb' 24 8, w.extractLsb' 16 8, w.extractLsb' 8 8, w.extractLsb' 0 8]

/-! ## Formats -/

/-- The three instruction formats (30_encoding.md R90, R91, R100). -/
inductive Format where
  | sig
  | chunk
  | scanline
  deriving DecidableEq, Repr

/-- Why bytes are no instruction (30_encoding.md R102), each by a name of its own. -/
inductive DecodeError where
  /-- the eight bytes differ from the signature, or there are fewer (R90) -/
  | notSignature
  /-- fewer than the 8 bytes of length and tag (40_framing.md R122) -/
  | frameTruncated
  /-- the payload is longer than the bytes given (40_framing.md R124) -/
  | payloadTruncated (tag : Word32)
  /-- the tag is none of the 14 (30_encoding.md R93) -/
  | unknownTag (tag : Word32)
  /-- no filter-type byte (30_encoding.md R100) -/
  | scanlineEmpty
  /-- the filter-type byte is 5 to 255 (30_encoding.md R101) -/
  | badFilterType (b : Byte)
  deriving DecidableEq, Repr

/-- The signature (30_encoding.md R90). -/
def signatureBytes : List Byte :=
  [0x89#8, 0x50#8, 0x4E#8, 0x47#8, 0x0D#8, 0x0A#8, 0x1A#8, 0x0A#8]

/-- Format SIG: all 64 bits are compared (30_encoding.md R90). -/
def decodeSig (bs : List Byte) : Except DecodeError Instr :=
  if bs.take 8 = signatureBytes then .ok .sig else .error .notSignature

/-- The length field: `be32` of the chunk's first four bytes (30_encoding.md R92). -/
def chunkLength (bs : List Byte) : Word32 :=
  be32 (bs.getD 0 0) (bs.getD 1 0) (bs.getD 2 0) (bs.getD 3 0)

/-- The tag: `be32` of the chunk's bytes 4 to 7 (30_encoding.md R93). -/
def chunkTag (bs : List Byte) : Word32 :=
  be32 (bs.getD 4 0) (bs.getD 5 0) (bs.getD 6 0) (bs.getD 7 0)

/-- The tag opcode map (30_encoding.md R93), row by row: a tag as one number with its first character in bits 31 to 24
(20_memory.md R66), and the instruction it selects. `ZTXT_TAG` is a parameter. -/
def tagTable (ztxt : Word32) : List (Word32 × (List Byte → Instr)) :=
  [(0x49484452#32, .ihdr), (0x504C5445#32, .plte), (0x49444154#32, .idat), (0x49454E44#32, .iend)]
  ++ [(0x624B4744#32, .bkgd), (0x74524E53#32, .trns)]
  ++ [(0x6348524D#32, .chrm), (0x67414D41#32, .gama), (0x68495354#32, .hist), (0x70485973#32, .phys)]
  ++ [(0x73424954#32, .sbit), (0x74455874#32, .text), (0x74494D45#32, .time), (ztxt, .ztxt)]

/-- The dispatch of 40_framing.md R125: the first row whose tag is equal in all 32 bits; any other tag selects nothing. -/
def instrOfTag (ztxt tag : Word32) (payload : List Byte) : Option Instr :=
  match (tagTable ztxt).find? (fun r => r.1 = tag) with
  | some r => some (r.2 payload)
  | none => none

/-- The 13 tags that are no parameter (30_encoding.md R93). -/
def fixedTags : List Word32 :=
  [0x49484452#32, 0x504C5445#32, 0x49444154#32, 0x49454E44#32, 0x624B4744#32, 0x74524E53#32, 0x6348524D#32]
  ++ [0x67414D41#32, 0x68495354#32, 0x70485973#32, 0x73424954#32, 0x74455874#32, 0x74494D45#32]

/-- Format CHUNK (30_encoding.md R91): length, tag, `length` payload bytes. The checksum that follows is not looked at
(40_framing.md R126), nor is anything after it. -/
def decodeChunk (ztxt : Word32) (bs : List Byte) : Except DecodeError Instr :=
  if bs.length < 8 then .error .frameTruncated
  else if (bs.drop 8).length < (chunkLength bs).toNat then .error (.payloadTruncated (chunkTag bs))
  else
    match instrOfTag ztxt (chunkTag bs) ((bs.drop 8).take (chunkLength bs).toNat) with
    | some i => .ok i
    | none => .error (.unknownTag (chunkTag bs))

/-- The filter-type opcode map (30_encoding.md R101), all 8 bits compared. -/
def instrOfFilterByte (b : Byte) : Option Instr :=
  if b = 0#8 then some .rowNone
  else if b = 1#8 then some .rowSub
  else if b = 2#8 then some .rowUp
  else if b = 3#8 then some .rowAvg
  else if b = 4#8 then some .rowPaeth
  else none

/-- Format SCANLINE (30_encoding.md R100): the filter-type byte selects the instruction. -/
def decodeScanline : List Byte → Except DecodeError Instr
  | [] => .error .scanlineEmpty
  | b :: _ =>
    match instrOfFilterByte b with
    | some i => .ok i
    | none => .error (.badFilterType b)

/-- The decoder: total on any bytes, refusing by name. -/
def decode (ztxt : Word32) (f : Format) (bs : List Byte) : Except DecodeError Instr :=
  match f with
  | .sig => decodeSig bs
  | .chunk => decodeChunk ztxt bs
  | .scanline => decodeScanline bs

/-! ## The encoder -/

/-- The format an instruction is written in. -/
def Instr.format : Instr → Format
  | .sig => .sig
  | .ihdr _ => .chunk
  | .plte _ => .chunk
  | .idat _ => .chunk
  | .iend _ => .chunk
  | .bkgd _ => .chunk
  | .trns _ => .chunk
  | .chrm _ => .chunk
  | .gama _ => .chunk
  | .hist _ => .chunk
  | .phys _ => .chunk
  | .sbit _ => .chunk
  | .text _ => .chunk
  | .time _ => .chunk
  | .ztxt _ => .chunk
  | .rowNone => .scanline
  | .rowSub => .scanline
  | .rowUp => .scanline
  | .rowAvg => .scanline
  | .rowPaeth => .scanline

/-- The tag of a chunk instruction (30_encoding.md R93), as one number with the first character in bits 31 to 24
(20_memory.md R66); 0 for the instructions that are no chunk. -/
def Instr.tag32 (ztxt : Word32) : Instr → Word32
  | .sig => 0#32
  | .ihdr _ => 0x49484452#32
  | .plte _ => 0x504C5445#32
  | .idat _ => 0x49444154#32
  | .iend _ => 0x49454E44#32
  | .bkgd _ => 0x624B4744#32
  | .trns _ => 0x74524E53#32
  | .chrm _ => 0x6348524D#32
  | .gama _ => 0x67414D41#32
  | .hist _ => 0x68495354#32
  | .phys _ => 0x70485973#32
  | .sbit _ => 0x73424954#32
  | .text _ => 0x74455874#32
  | .time _ => 0x74494D45#32
  | .ztxt _ => ztxt
  | .rowNone => 0#32
  | .rowSub => 0#32
  | .rowUp => 0#32
  | .rowAvg => 0#32
  | .rowPaeth => 0#32

/-- The filter-type byte of a scanline instruction (30_encoding.md R101); 0 for the others. -/
def Instr.filterByte : Instr → Byte
  | .sig => 0#8
  | .ihdr _ => 0#8
  | .plte _ => 0#8
  | .idat _ => 0#8
  | .iend _ => 0#8
  | .bkgd _ => 0#8
  | .trns _ => 0#8
  | .chrm _ => 0#8
  | .gama _ => 0#8
  | .hist _ => 0#8
  | .phys _ => 0#8
  | .sbit _ => 0#8
  | .text _ => 0#8
  | .time _ => 0#8
  | .ztxt _ => 0#8
  | .rowNone => 0#8
  | .rowSub => 1#8
  | .rowUp => 2#8
  | .rowAvg => 3#8
  | .rowPaeth => 4#8

/-- Length, tag and payload of a chunk: the part of format CHUNK that the block reads (30_encoding.md R91). -/
def encodeFrame (ztxt : Word32) (i : Instr) : List Byte :=
  bytes32 (BitVec.ofNat 32 i.payload.length) ++ bytes32 (i.tag32 ztxt) ++ i.payload

/-- The bytes of an instruction, with `crc` in the four checksum bytes of a chunk (30_encoding.md R90, R91, R100). The
filtered bytes of a scanline are data, not part of its selection. -/
def encodeWith (ztxt crc : Word32) (i : Instr) : List Byte :=
  match i.format with
  | .sig => signatureBytes
  | .chunk => encodeFrame ztxt i ++ bytes32 crc
  | .scanline => [i.filterByte]

/-- The bytes of an instruction under the default `ZTXT_TAG`, with a zero checksum. -/
def encode (i : Instr) : List Byte := encodeWith Config.ztxtTag 0#32 i

/-! ## Words as spec/opcode_table.json numbers them -/

/-- The bytes of a table word in order of rising offset: the table shows a unit as one big-endian number
(20_memory.md R66, 30_encoding.md R90). -/
def tableBytes : Nat → Nat → List Byte
  | 0, _ => []
  | n + 1, w => BitVec.ofNat 8 (w / 256 ^ n) :: tableBytes n w

/-- The bytes of the whole instruction that a table word stands for. A chunk row numbers the tag alone; the length
field that precedes it, the payload and the checksum then are zeros (log 5). -/
def tableInstrBytes (nbits w : Nat) : List Byte :=
  if nbits = 32 then bytes32 0#32 ++ tableBytes 4 w ++ bytes32 0#32 else tableBytes (nbits / 8) w

/-- The format of a row by its width: 64 bits SIG, 32 bits CHUNK, 8 bits SCANLINE. -/
def tableFormat (nbits : Nat) : Option Format :=
  if nbits = 64 then some .sig else if nbits = 32 then some .chunk else if nbits = 8 then some .scanline else none

/-- The instruction the decoder reads from a word of spec/opcode_table.json. -/
def decodeTableWord (nbits w : Nat) : Option Instr :=
  match tableFormat nbits with
  | none => none
  | some f =>
    match decode Config.ztxtTag f (tableInstrBytes nbits w) with
    | .ok i => some i
    | .error _ => none

end Sys2Proof
end

