-- ==== Sys2Proof/Machine/State.lean ====
section
/-! DEFINITION. The state of the block as plain data (10_state.md, 20_memory.md R60), why a step can stop, and the
state after hard reset (10_state.md R39, 70_reset_and_hazards.md R260). -/

namespace Sys2Proof.Machine

/-! ## Enumerations -/

/-- `PHASE` (10_state.md R21). -/
inductive Phase where
  | idle
  | sig
  | chunks
  | final
  | inflate
  | defilter
  | done
  | error
  deriving DecidableEq, Repr

/-- The command that started the run, as `CMD_LATCH` holds it (10_state.md R21, R34). -/
inductive Command where
  /-- 0: no command -/
  | noCommand
  /-- 1 -/
  | decode
  /-- 2 -/
  | defilter
  /-- 3 -/
  | parse
  deriving DecidableEq, Repr

/-- `COLOR_MODEL`: one of five variants (10_state.md R24, 30_encoding.md R95). -/
inductive ColorModel where
  | greyscale
  | rgb
  | indexed
  | greyAlpha
  | rgbAlpha
  deriving DecidableEq, Repr

/-- `TRNS_KIND` (10_state.md R27). -/
inductive TrnsKind where
  | absent
  | alphaList
  | greyKey
  | rgbKey
  deriving DecidableEq, Repr

/-- `BKGD_KIND` (10_state.md R28). -/
inductive BkgdKind where
  | absent
  | paletteIndex
  | grey
  | rgb
  deriving DecidableEq, Repr

/-- `DF.ftype`: 0 to 4 (10_state.md R31, 30_encoding.md R101). -/
inductive FilterType where
  | noFilter
  | sub
  | up
  | average
  | paeth
  deriving DecidableEq, Repr

/-- `ERR_KIND` (60_exceptions.md R230). -/
inductive ErrKind where
  | noError
  | signatureError
  | formatError
  | decompressionError
  /-- reserved for host software; the block never raises it (60_exceptions.md R233) -/
  | ioError
  deriving DecidableEq, Repr

/-- The causes of an error (60_exceptions.md R231). -/
inductive Cause where
  | signatureMismatch
  | unknownChunkTag
  | lengthPastBufferEnd
  | headerLengthNot13
  | invalidColorModelByte
  | paletteLengthNotMultipleOf3
  | endNotEmpty
  | backgroundLengthInvalid
  | headerNotFirst
  | duplicateHeader
  | duplicatePalette
  | paletteAfterBackground
  | backgroundAfterData
  | backgroundShapeMismatch
  | transparencyForbidden
  | transparencyShapeMismatch
  | transparencyBeforePalette
  | illegalBitDepth
  | paletteMissing
  | paletteForbidden
  | paletteTooLong
  | invalidFilterType
  | scanlineDataShort
  | scanlineDataExcess
  | invalidDefilterParameter
  | inflateFailed
  /-- reserved for host software; the block never raises it (60_exceptions.md R233) -/
  | hostReported
  deriving DecidableEq, Repr

/-- The four byte spaces (20_memory.md R60). -/
inductive Space where
  | input
  | zbuf
  | fbuf
  | obuf
  deriving DecidableEq, Repr

/-! ## Records -/

/-- One palette entry (10_state.md R26). -/
structure PalEntry where
  r : Byte
  g : Byte
  b : Byte
  deriving DecidableEq, Repr

/-- The value of a Background record (41_chunk_decoders.md R154). -/
inductive BackgroundValue where
  | paletteIndex (i : Byte)
  | grey (v : Half)
  | rgb (r g b : Half)
  deriving DecidableEq, Repr

/-- The eight ignorable chunk types (41_chunk_decoders.md R146 to R153). -/
inductive IgnorableTag where
  | chrm
  | gama
  | hist
  | phys
  | sbit
  | text
  | time
  | ztxt
  deriving DecidableEq, Repr

/-- What a chunk decoder produces and the assembler consumes within one chunk step (41_chunk_decoders.md R154). -/
inductive ChunkRecord where
  | header (width height : Word32) (bitDepth : Byte) (colorModel : ColorModel) (interlace : Bool)
  | palette (entries : List PalEntry)
  | imageData (bytes : List Byte)
  | endOfImage
  | background (v : BackgroundValue)
  | transparency (raw : List Byte)
  | ignorable (tag : IgnorableTag)
  deriving DecidableEq, Repr

/-! ## Memory -/

/-- One space: (offset, byte) pairs in order of strictly rising offset (20_memory.md R60). The operations on it are in
Machine/Ops.lean. -/
abbrev Memory := List Host.Cell

/-- The canonical form: offsets strictly rising. An unlisted offset reads as no value at all (`Memory.unlisted`), so no
entry can equal what an unlisted offset reads as. -/
abbrev Memory.wf (m : Memory) : Prop := List.Pairwise (fun x y => x.1 < y.1) m

/-- What an offset that nothing has written reads as: no value (log 1). -/
def Memory.unlisted : Option Byte := none

/-! ## The host's moves -/

/-- What the host agent can do to the block (10_state.md R20, R35; 70_reset_and_hazards.md R260, R263, R264). Log 4. -/
inductive HostMove where
  /-- write a 32-bit register at a byte offset of the map -/
  | writeReg (offset : Nat) (value : Word32)
  /-- place one byte in space IN -/
  | writeIn (offset : Word64) (value : Byte)
  /-- place one byte in space FBUF -/
  | writeFbuf (offset : Word64) (value : Byte)
  /-- hard reset -/
  | hardReset
  /-- do nothing while the block takes one step -/
  | pass
  deriving DecidableEq, Repr

/-! ## State -/

/-- All state of the block (10_state.md) and, last, the host's pending moves. -/
structure State where
  /-- `PHASE` (R21) -/
  phase : Phase
  /-- `CMD_LATCH` (R21) -/
  cmdLatch : Command
  /-- `FE.cursor`, the framing engine's program counter (R22) -/
  feCursor : Word64
  /-- `FE.len` (R23) -/
  feLen : Word32
  /-- `FE.tag` (R23) -/
  feTag : Word32
  /-- `WIDTH` (R24) -/
  width : Word32
  /-- `HEIGHT` (R24, R30) -/
  height : Word32
  /-- `BIT_DEPTH` (R24) -/
  bitDepth : Byte
  /-- `COLOR_MODEL` (R24) -/
  colorModel : ColorModel
  /-- `INTERLACE` (R24) -/
  interlace : Bool
  /-- `AS.hdr_seen` (R25) -/
  hdrSeen : Bool
  /-- `AS.pal_seen` (R25) -/
  palSeen : Bool
  /-- `AS.bkgd_seen` (R25) -/
  bkgdSeen : Bool
  /-- `AS.data_seen` (R25) -/
  dataSeen : Bool
  /-- `AS.trns_seen` (R25) -/
  trnsSeen : Bool
  /-- `FE.end_seen` (R25) -/
  endSeen : Bool
  /-- `PAL`, whose length is `PAL_LEN` (R26) -/
  pal : List PalEntry
  /-- `TRNS_KIND` (R27) -/
  trnsKind : TrnsKind
  /-- `TRNS_ALPHA` (R27) -/
  trnsAlpha : List Byte
  /-- `TRNS_GREY` (R27) -/
  trnsGrey : Half
  /-- `TRNS_R` (R27) -/
  trnsR : Half
  /-- `TRNS_G` (R27) -/
  trnsG : Half
  /-- `TRNS_B` (R27) -/
  trnsB : Half
  /-- `BKGD_KIND` (R28) -/
  bkgdKind : BkgdKind
  /-- `BKGD_INDEX` (R28) -/
  bkgdIndex : Byte
  /-- `BKGD_GREY` (R28) -/
  bkgdGrey : Half
  /-- `BKGD_R` (R28) -/
  bkgdR : Half
  /-- `BKGD_G` (R28) -/
  bkgdG : Half
  /-- `BKGD_B` (R28) -/
  bkgdB : Half
  /-- `ZLEN` (R29) -/
  zlen : Word64
  /-- `BPP` (R30) -/
  bpp : BitVec 4
  /-- `ROWBYTES` (R30) -/
  rowbytes : Word64
  /-- `F_LEN` (R30) -/
  fLen : Word64
  /-- `DF.row` (R31) -/
  dfRow : Word32
  /-- `DF.col` (R31) -/
  dfCol : Word64
  /-- `DF.ftype` (R31) -/
  dfFtype : FilterType
  /-- `DF.fpos` (R31) -/
  dfFpos : Word64
  /-- `DF.opos` (R31) -/
  dfOpos : Word64
  /-- `DF.x`, the filtered byte (R32) -/
  dfX : Byte
  /-- `DF.a`, left (R32) -/
  dfA : Byte
  /-- `DF.b`, above (R32) -/
  dfB : Byte
  /-- `DF.c`, upper-left (R32) -/
  dfC : Byte
  /-- `DF.pr`, the predictor value (R32) -/
  dfPr : Byte
  /-- the Paeth intermediate `p` (R32) -/
  dfP : Int
  /-- the Paeth intermediate `pa` (R32) -/
  dfPa : Int
  /-- the Paeth intermediate `pb` (R32) -/
  dfPb : Int
  /-- the Paeth intermediate `pc` (R32) -/
  dfPc : Int
  /-- `ERR_KIND` (R33) -/
  errKind : ErrKind
  /-- `ERR_CAUSE` (R33) -/
  errCause : Byte
  /-- `ERR_TAG` (R33) -/
  errTag : Word32
  /-- `ERR_POS` (R33) -/
  errPos : Word64
  /-- `CFG.EXCESS_REJECT` (R36) -/
  excessReject : Bool
  /-- `IN_LEN` (20_memory.md R60) -/
  inLen : Word64
  /-- `O_LEN` (20_memory.md R60, 44_defilter.md R211) -/
  oLen : Word64
  /-- space IN (20_memory.md R61) -/
  inMem : Memory
  /-- space ZBUF (R62) -/
  zbuf : Memory
  /-- space FBUF (R63) -/
  fbuf : Memory
  /-- space OBUF (R64) -/
  obuf : Memory
  /-- the host's moves still to come, the next first; the model's own field (log 4) -/
  host : List HostMove
  deriving DecidableEq, Repr

/-- Why the machine stops with a fault. None of these is an error of the spec: those are next states (Ops.raise). -/
inductive Fault where
  /-- Raised by every read of a space (signature, chunk, Inflate call, row start, byte step) when it meets an offset
  that nothing has written: 10_state.md R39 leaves such contents unspecified, and a host that keeps its duties
  (70_reset_and_hazards.md R263, R264) never causes it. Safe (log 1). -/
  | unwrittenByte (space : Space)
  /-- Raised by the final pass when `CMD_LATCH` is neither DECODE nor PARSE, for which 42_assembler.md R175 and R176
  give no transition; no run reaches it. Safe (log 8). -/
  | noTransition
  deriving DecidableEq, Repr

/-- What the model does not accept. -/
inductive Refusal where
  /-- An instruction whose meaning is not written yet, by its mnemonic; raised by `exec` alone. Safe. -/
  | notModelled (mnemonic : String)
  /-- Raised by a DECODE or PARSE command when `IN_LEN` is 2^63 or more: 93_implementation_defined.md U11 says refuse.
  Safe (log 7). -/
  | inputTooLong
  /-- Raised by the Inflate call when the result has 2^63 bytes or more: U12 says refuse. Safe (log 7). -/
  | inflateTooLong
  /-- Raised by the host's move that writes IN or FBUF while `STATUS.BUSY` is 1: U13 says refuse. Safe (log 7). -/
  | hostSpaceWriteWhileBusy
  deriving DecidableEq, Repr

/-- What a step answers. -/
abbrev StepResult := Host.Outcome State Fault Refusal

/-- The block right after hard reset (10_state.md R39, 70_reset_and_hazards.md R260). The dead latches `FE.len`,
`FE.tag`, `DF.x`, `DF.a`, `DF.b`, `DF.c`, `DF.pr` and the Paeth intermediates have no reset value in the spec and are 0
here (DESIGN CHOICE, log 2); the spaces list no byte (log 1); the host has no move pending (log 4). -/
def State.reset : State where
  phase := .idle
  cmdLatch := .noCommand
  feCursor := 0
  feLen := 0
  feTag := 0
  width := 0
  height := 0
  bitDepth := 0
  colorModel := .greyscale
  interlace := false
  hdrSeen := false
  palSeen := false
  bkgdSeen := false
  dataSeen := false
  trnsSeen := false
  endSeen := false
  pal := []
  trnsKind := .absent
  trnsAlpha := []
  trnsGrey := 0
  trnsR := 0
  trnsG := 0
  trnsB := 0
  bkgdKind := .absent
  bkgdIndex := 0
  bkgdGrey := 0
  bkgdR := 0
  bkgdG := 0
  bkgdB := 0
  zlen := 0
  bpp := 0
  rowbytes := 0
  fLen := 0
  dfRow := 0
  dfCol := 0
  dfFtype := .noFilter
  dfFpos := 0
  dfOpos := 0
  dfX := 0
  dfA := 0
  dfB := 0
  dfC := 0
  dfPr := 0
  dfP := 0
  dfPa := 0
  dfPb := 0
  dfPc := 0
  errKind := .noError
  errCause := 0
  errTag := 0
  errPos := 0
  excessReject := false
  inLen := 0
  oLen := 0
  inMem := []
  zbuf := []
  fbuf := []
  obuf := []
  host := []

end Sys2Proof.Machine
end

