-- ==== Sys2Proof/Machine/Ops.lean ====
section
/-! DEFINITION. The operations on memory (00_scope.md R7 `MemRead`, `MemWrite`; 20_memory.md R68), taking an exception
(60_exceptions.md R237) and leaving it (70_reset_and_hazards.md R261), and run initialisation (R262). -/

namespace Sys2Proof.Machine

/-! ## Memory -/

/-- `S[addr]` (00_scope.md R7); no value where nothing has been written (log 1). -/
def Memory.read : Memory → Nat → Option Byte
  | [], _ => Memory.unlisted
  | (a, b) :: m, x => if a = x then some b else Memory.read m x

/-- Write one byte (20_memory.md R68), keeping the offsets strictly rising. -/
def Memory.write : Memory → Nat → Byte → Memory
  | [], x, v => [(x, v)]
  | (a, b) :: m, x, v =>
    if x < a then (x, v) :: (a, b) :: m
    else if x = a then (x, v) :: m
    else (a, b) :: Memory.write m x v

/-- `MemRead(S, addr, n)` (00_scope.md R7): `n` single-byte reads at rising offsets. -/
def Memory.readBytes (m : Memory) : Nat → Nat → Option (List Byte)
  | _, 0 => some []
  | x, n + 1 =>
    match m.read x with
    | none => none
    | some b =>
      match Memory.readBytes m (x + 1) n with
      | none => none
      | some bs => some (b :: bs)

/-- `MemWrite(S, addr, n, v)` (00_scope.md R7): single-byte writes at rising offsets. -/
def Memory.writeBytes : Memory → Nat → List Byte → Memory
  | m, _, [] => m
  | m, x, b :: bs => Memory.writeBytes (Memory.write m x b) (x + 1) bs

/-- The space that holds `bs` from offset `x` on and nothing else. -/
def Memory.ofBytesFrom : Nat → List Byte → Memory
  | _, [] => []
  | x, b :: bs => (x, b) :: Memory.ofBytesFrom (x + 1) bs

/-- The space whose whole content is `bs` (`FBUF <- f`, 43_decompressor.md R186). -/
def Memory.ofBytes (bs : List Byte) : Memory := Memory.ofBytesFrom 0 bs

/-! ## Errors: taking one and leaving it -/

/-- The kind of a cause (60_exceptions.md R231). -/
def Cause.kind : Cause → ErrKind
  | .signatureMismatch => .signatureError
  | .unknownChunkTag => .formatError
  | .lengthPastBufferEnd => .formatError
  | .headerLengthNot13 => .formatError
  | .invalidColorModelByte => .formatError
  | .paletteLengthNotMultipleOf3 => .formatError
  | .endNotEmpty => .formatError
  | .backgroundLengthInvalid => .formatError
  | .headerNotFirst => .formatError
  | .duplicateHeader => .formatError
  | .duplicatePalette => .formatError
  | .paletteAfterBackground => .formatError
  | .backgroundAfterData => .formatError
  | .backgroundShapeMismatch => .formatError
  | .transparencyForbidden => .formatError
  | .transparencyShapeMismatch => .formatError
  | .transparencyBeforePalette => .formatError
  | .illegalBitDepth => .formatError
  | .paletteMissing => .formatError
  | .paletteForbidden => .formatError
  | .paletteTooLong => .formatError
  | .invalidFilterType => .formatError
  | .scanlineDataShort => .formatError
  | .scanlineDataExcess => .formatError
  | .invalidDefilterParameter => .formatError
  | .inflateFailed => .decompressionError
  | .hostReported => .ioError

/-- The code of a cause within its kind (60_exceptions.md R231, 92_eei_decisions.md D6). -/
def Cause.code : Cause → Byte
  | .signatureMismatch => 1
  | .unknownChunkTag => 1
  | .lengthPastBufferEnd => 2
  | .headerLengthNot13 => 3
  | .invalidColorModelByte => 4
  | .paletteLengthNotMultipleOf3 => 5
  | .endNotEmpty => 6
  | .backgroundLengthInvalid => 7
  | .headerNotFirst => 8
  | .duplicateHeader => 9
  | .duplicatePalette => 10
  | .paletteAfterBackground => 11
  | .backgroundAfterData => 12
  | .backgroundShapeMismatch => 13
  | .transparencyForbidden => 14
  | .transparencyShapeMismatch => 15
  | .transparencyBeforePalette => 16
  | .illegalBitDepth => 17
  | .paletteMissing => 18
  | .paletteForbidden => 19
  | .paletteTooLong => 20
  | .invalidFilterType => 21
  | .scanlineDataShort => 22
  | .scanlineDataExcess => 23
  | .invalidDefilterParameter => 24
  | .inflateFailed => 1
  | .hostReported => 1

/-- `raise K(cause, tag, pos)` (60_exceptions.md R237): the four error registers and `PHASE`, nothing else. -/
def raise (c : Cause) (tag : Word32) (pos : Word64) (s : State) : State :=
  { s with errKind := c.kind, errCause := c.code, errTag := tag, errPos := pos, phase := .error }

/-- `CTRL.CLEAR` once honoured (70_reset_and_hazards.md R261): the only return from a finished or failed run but hard
reset (60_exceptions.md R239). -/
def clear (s : State) : State :=
  { s with phase := .idle, cmdLatch := .noCommand, errKind := .noError, errCause := 0, errTag := 0, errPos := 0 }

/-! ## Run initialisation -/

/-- Run initialisation for the DEFILTER command (70_reset_and_hazards.md R262): `HEIGHT`, `BPP`, `ROWBYTES` and `F_LEN`
keep the host's values. -/
def runInitKeep (s : State) : State :=
  { s with
    feCursor := 0
    hdrSeen := false, palSeen := false, bkgdSeen := false, dataSeen := false, trnsSeen := false, endSeen := false
    width := 0, bitDepth := 0, colorModel := .greyscale, interlace := false
    pal := []
    trnsKind := .absent, trnsAlpha := [], trnsGrey := 0, trnsR := 0, trnsG := 0, trnsB := 0
    bkgdKind := .absent, bkgdIndex := 0, bkgdGrey := 0, bkgdR := 0, bkgdG := 0, bkgdB := 0
    zlen := 0
    dfRow := 0, dfCol := 0, dfFpos := 0, dfOpos := 0, dfFtype := .noFilter
    errKind := .noError, errCause := 0, errTag := 0, errPos := 0 }

/-- Run initialisation for DECODE and PARSE (70_reset_and_hazards.md R262). -/
def runInit (s : State) : State :=
  { runInitKeep s with height := 0, bpp := 0, rowbytes := 0, fLen := 0 }

/-- `DefilterInit` (44_defilter.md R201), at both entries. -/
def defilterInit (s : State) : State :=
  { s with dfRow := 0, dfCol := 0, dfFpos := 0, dfOpos := 0, dfFtype := .noFilter }

end Sys2Proof.Machine
end

