-- ==== Sys2Proof/Machine/Operands.lean ====
section
/-! DEFINITION. Operand forms: fields of a payload (30_encoding.md R94 to R98) and the neighbour fetch, the only
addressing mode of the defilterer (44_defilter.md R203). -/

namespace Sys2Proof.Machine

/-! ## Payload fields -/

/-- `payload[k]`; every use stands behind a check of the payload's length. -/
def byteAt (p : List Byte) (k : Nat) : Byte := p.getD k 0

/-- `be16(payload[k], payload[k+1])` (30_encoding.md R97, R98). -/
def halfAt (p : List Byte) (k : Nat) : Half := be16 (byteAt p k) (byteAt p (k + 1))

/-- `be32(payload[k], .., payload[k+3])` (30_encoding.md R94). -/
def wordAt (p : List Byte) (k : Nat) : Word32 :=
  be32 (byteAt p k) (byteAt p (k + 1)) (byteAt p (k + 2)) (byteAt p (k + 3))

/-- The palette entries of a payload, three bytes each (30_encoding.md R96). -/
def palEntries : List Byte → List PalEntry
  | r :: g :: b :: rest => ⟨r, g, b⟩ :: palEntries rest
  | _ => []

/-- The colour-model byte mapping (30_encoding.md R95). -/
def colorModelOfByte (b : Byte) : Option ColorModel :=
  if b = 0#8 then some .greyscale
  else if b = 2#8 then some .rgb
  else if b = 3#8 then some .indexed
  else if b = 4#8 then some .greyAlpha
  else if b = 6#8 then some .rgbAlpha
  else none

/-- The value `COLOR_MODEL` holds for a variant (10_state.md R24). -/
def ColorModel.code : ColorModel → BitVec 3
  | .greyscale => 0
  | .rgb => 2
  | .indexed => 3
  | .greyAlpha => 4
  | .rgbAlpha => 6

/-- The channel count of a colour model (30_encoding.md R95, 42_assembler.md R174). -/
def ColorModel.channels : ColorModel → Nat
  | .greyscale => 1
  | .rgb => 3
  | .indexed => 1
  | .greyAlpha => 2
  | .rgbAlpha => 4

/-- `PAL_LEN` (10_state.md R26). -/
def State.palLen (s : State) : Word32 := BitVec.ofNat 32 s.pal.length

/-! ## Operands of a scanline byte -/

/-- The four bytes a byte step works on (44_defilter.md R203). -/
structure Neighbours where
  /-- the filtered byte -/
  x : Byte
  /-- left -/
  a : Byte
  /-- above -/
  b : Byte
  /-- upper-left -/
  c : Byte
  deriving DecidableEq, Repr

/-- A neighbour of 44_defilter.md R203: the OBUF byte at `addr` where the neighbour exists, else 0. -/
def neighbour (present : Bool) (m : Memory) (addr : Nat) : Option Byte :=
  if present then m.read addr else some 0

/-- The FBUF offset of the filtered byte, `q + c` (44_defilter.md R203). -/
def State.filteredAddr (s : State) : Nat := s.dfFpos.toNat + s.dfCol.toNat

/-- The OBUF offset the byte step writes, `o + (c - 1)` (44_defilter.md R210). -/
def State.rawAddr (s : State) : Nat := s.dfOpos.toNat + (s.dfCol.toNat - 1)

/-- `c > BPP`: the left neighbour exists (44_defilter.md R203). -/
def State.hasLeft (s : State) : Bool := decide (s.bpp.toNat < s.dfCol.toNat)

/-- `r > 0`: the row above exists (44_defilter.md R203). -/
def State.hasAbove (s : State) : Bool := decide (0 < s.dfRow.toNat)

/-- The fetch of `DF.x`, `DF.a`, `DF.b`, `DF.c` (44_defilter.md R203), or the space in which a byte that nothing has
written was met (log 1). -/
def fetchNeighbours (s : State) : Except Space Neighbours :=
  match s.fbuf.read s.filteredAddr with
  | none => .error .fbuf
  | some x =>
    match neighbour s.hasLeft s.obuf (s.rawAddr - s.bpp.toNat) with
    | none => .error .obuf
    | some a =>
      match neighbour s.hasAbove s.obuf (s.rawAddr - s.rowbytes.toNat) with
      | none => .error .obuf
      | some b =>
        match neighbour (s.hasAbove && s.hasLeft) s.obuf (s.rawAddr - s.rowbytes.toNat - s.bpp.toNat) with
        | none => .error .obuf
        | some c => .ok ⟨x, a, b, c⟩

end Sys2Proof.Machine
end

