-- ==== Sys2Proof/Machine/Assembler.lean ====
section
/-! DEFINITION. The assembly sequencer (42_assembler.md): the header-first gate, one transition per record kind, the
final legality pass and what it derives. -/

namespace Sys2Proof.Machine

/-! ## Transitions -/

/-- Header record (42_assembler.md R161). -/
def headerRecord (w h : Word32) (d : Byte) (cm : ColorModel) (il : Bool) (s : State) : Except Cause State :=
  .ok { s with width := w, height := h, bitDepth := d, colorModel := cm, interlace := il, hdrSeen := true }

/-- Palette record (42_assembler.md R162). -/
def paletteRecord (entries : List PalEntry) (s : State) : Except Cause State :=
  if s.palSeen then .error .duplicatePalette
  else if s.bkgdSeen then .error .paletteAfterBackground
  else .ok { s with pal := entries, palSeen := true }

/-- ImageData record (42_assembler.md R163). -/
def imageDataRecord (bytes : List Byte) (s : State) : Except Cause State :=
  .ok { s with
    zbuf := Memory.writeBytes s.zbuf s.zlen.toNat bytes
    zlen := BitVec.ofNat 64 (s.zlen.toNat + bytes.length)
    dataSeen := true }

/-- Which background shape fits which colour model (42_assembler.md R164, 92_eei_decisions.md D17). -/
def backgroundFits : ColorModel → BackgroundValue → Bool
  | .indexed, .paletteIndex _ => true
  | .greyscale, .grey _ => true
  | .greyAlpha, .grey _ => true
  | .rgb, .rgb _ _ _ => true
  | .rgbAlpha, .rgb _ _ _ => true
  | _, _ => false

/-- The `BKGD` registers after a background value is stored (42_assembler.md R164). -/
def storeBackground : BackgroundValue → State → State
  | .paletteIndex i, s => { s with bkgdKind := .paletteIndex, bkgdIndex := i }
  | .grey v, s => { s with bkgdKind := .grey, bkgdGrey := v }
  | .rgb r g b, s => { s with bkgdKind := .rgb, bkgdR := r, bkgdG := g, bkgdB := b }

/-- Background record (42_assembler.md R164). -/
def backgroundRecord (v : BackgroundValue) (s : State) : Except Cause State :=
  if s.dataSeen then .error .backgroundAfterData
  else if backgroundFits s.colorModel v then .ok { storeBackground v s with bkgdSeen := true }
  else .error .backgroundShapeMismatch

/-- Transparency record (42_assembler.md R165). -/
def transparencyRecord (raw : List Byte) (s : State) : Except Cause State :=
  match s.colorModel with
  | .greyAlpha => .error .transparencyForbidden
  | .rgbAlpha => .error .transparencyForbidden
  | .indexed =>
    if s.palSeen = false then .error .transparencyBeforePalette
    else if s.pal.length < raw.length then .error .transparencyShapeMismatch
    else .ok { s with
      trnsKind := .alphaList
      trnsAlpha := raw ++ List.replicate (s.pal.length - raw.length) 255#8
      trnsSeen := true }
  | .greyscale =>
    if raw.length ≠ 2 then .error .transparencyShapeMismatch
    else .ok { s with trnsKind := .greyKey, trnsGrey := halfAt raw 0, trnsSeen := true }
  | .rgb =>
    if raw.length ≠ 6 then .error .transparencyShapeMismatch
    else .ok { s with
      trnsKind := .rgbKey, trnsR := halfAt raw 0, trnsG := halfAt raw 2, trnsB := halfAt raw 4, trnsSeen := true }

/-- End record (42_assembler.md R167). -/
def endRecord (s : State) : Except Cause State := .ok { s with endSeen := true }

/-- The transition for a record's kind, once past the gate (42_assembler.md R161 to R167). -/
def transition (r : ChunkRecord) (s : State) : Except Cause State :=
  match r with
  | .header w h d cm il => headerRecord w h d cm il s
  | .palette entries => paletteRecord entries s
  | .imageData bytes => imageDataRecord bytes s
  | .endOfImage => endRecord s
  | .background v => backgroundRecord v s
  | .transparency raw => transparencyRecord raw s
  | .ignorable _ => .ok s

/-- Whether a record is a Header. -/
def ChunkRecord.isHeader : ChunkRecord → Bool
  | .header _ _ _ _ _ => true
  | .palette _ => false
  | .imageData _ => false
  | .endOfImage => false
  | .background _ => false
  | .transparency _ => false
  | .ignorable _ => false

/-- `Assemble(rec)`: the header-first gate, then the transition (42_assembler.md R160). -/
def assemble (r : ChunkRecord) (s : State) : Except Cause State :=
  if r.isHeader && s.hdrSeen then .error .duplicateHeader
  else if !r.isHeader && !s.hdrSeen then .error .headerNotFirst
  else transition r s

/-! ## The final legality pass -/

/-- The legal bit depths of a colour model (42_assembler.md R170). -/
def legalDepths : ColorModel → List Byte
  | .greyscale => [1#8, 2#8, 4#8, 8#8, 16#8]
  | .greyAlpha => [8#8, 16#8]
  | .rgb => [8#8, 16#8]
  | .rgbAlpha => [8#8, 16#8]
  | .indexed => [1#8, 2#8, 4#8, 8#8]

/-- Colour models for which a palette is forbidden (42_assembler.md R171). -/
def paletteForbiddenFor : ColorModel → Bool
  | .greyscale => true
  | .greyAlpha => true
  | .rgb => false
  | .rgbAlpha => false
  | .indexed => false

/-- The first failing check of the final pass, in the order of 42_assembler.md R173 (R170, then R171, then R172). -/
def finalCause (s : State) : Option Cause :=
  if s.bitDepth ∉ legalDepths s.colorModel then some .illegalBitDepth
  else if paletteForbiddenFor s.colorModel && s.palSeen then some .paletteForbidden
  else if s.colorModel = .indexed ∧ (s.palSeen = false ∨ s.pal.length = 0) then some .paletteMissing
  else if s.colorModel = .indexed ∧ 2 ^ s.bitDepth.toNat < s.pal.length then some .paletteTooLong
  else none

/-- `bits_per_pixel` (42_assembler.md R174). -/
def State.bitsPerPixel (s : State) : Nat := s.colorModel.channels * s.bitDepth.toNat

/-- `BPP` and `ROWBYTES` from the header (42_assembler.md R174). -/
def deriveRow (s : State) : State :=
  { s with
    bpp := BitVec.ofNat 4 (max 1 (s.bitsPerPixel / 8))
    rowbytes := BitVec.ofNat 64 ((s.width.toNat * s.bitsPerPixel + 7) / 8) }

/-- The step of phase FINAL (42_assembler.md R170 to R176). A `CMD_LATCH` that is neither DECODE nor PARSE has no
transition (log 8). -/
def finalPass (s : State) : StepResult :=
  match finalCause s with
  | some c => .next (raise c 0#32 s.feCursor s)
  | none =>
    match s.cmdLatch with
    | .parse => .next { deriveRow s with phase := .done }
    | .decode => .next { deriveRow s with phase := .inflate }
    | .noCommand => .fault .noTransition
    | .defilter => .fault .noTransition

end Sys2Proof.Machine
end

