-- ==== Sys2Proof/Machine/Decoders.lean ====
section
/-! DEFINITION. The chunk decoders (41_chunk_decoders.md): pure functions from the payload to a record or the cause of
an error. They read nothing else and write no state. -/

namespace Sys2Proof.Machine

/-- `DecodeIHDR` (41_chunk_decoders.md R140): the length first, then the colour-model byte; bytes 10 and 11 ignored. -/
def decodeIhdr (p : List Byte) : Except Cause ChunkRecord :=
  if p.length ≠ 13 then .error .headerLengthNot13
  else
    match colorModelOfByte (byteAt p 9) with
    | none => .error .invalidColorModelByte
    | some cm => .ok (.header (wordAt p 0) (wordAt p 4) (byteAt p 8) cm (decide (byteAt p 12 = 1#8)))

/-- `DecodePLTE` (41_chunk_decoders.md R141). -/
def decodePlte (p : List Byte) : Except Cause ChunkRecord :=
  if p.length % 3 ≠ 0 then .error .paletteLengthNotMultipleOf3 else .ok (.palette (palEntries p))

/-- `DecodeIDAT` (41_chunk_decoders.md R142). -/
def decodeIdat (p : List Byte) : Except Cause ChunkRecord := .ok (.imageData p)

/-- `DecodeIEND` (41_chunk_decoders.md R143). -/
def decodeIend (p : List Byte) : Except Cause ChunkRecord :=
  if p.length ≠ 0 then .error .endNotEmpty else .ok .endOfImage

/-- `DecodeBKGD` (41_chunk_decoders.md R144): the variant by length alone. -/
def decodeBkgd (p : List Byte) : Except Cause ChunkRecord :=
  if p.length = 1 then .ok (.background (.paletteIndex (byteAt p 0)))
  else if p.length = 2 then .ok (.background (.grey (halfAt p 0)))
  else if p.length = 6 then .ok (.background (.rgb (halfAt p 0) (halfAt p 2) (halfAt p 4)))
  else .error .backgroundLengthInvalid

/-- `DecodeTRNS` (41_chunk_decoders.md R145). -/
def decodeTrns (p : List Byte) : Except Cause ChunkRecord := .ok (.transparency p)

/-- The body the eight ignorable decoders share (41_chunk_decoders.md section 3): the payload is discarded. -/
def decodeIgnorable (t : IgnorableTag) (_ : List Byte) : Except Cause ChunkRecord := .ok (.ignorable t)

end Sys2Proof.Machine
end

