-- ==== Sys2Proof/Machine/Framing.lean ====
section
/-! DEFINITION. The framing engine (40_framing.md): the signature check and the part of a chunk step that follows the
dispatch, shared by the 14 tags. -/

namespace Sys2Proof.Machine

/-- SIG (40_framing.md R121). Runs in phase SIG. -/
def execSig (s : State) : StepResult :=
  if s.inLen.toNat < 8 then .next (raise .signatureMismatch 0#32 0#64 s)
  else
    match s.inMem.readBytes 0 8 with
    | none => .fault (.unwrittenByte .input)
    | some bs =>
      match decodeSig bs with
      | .ok _ => .next { s with feCursor := 8#64, phase := .chunks }
      | .error _ => .next (raise .signatureMismatch 0#32 0#64 s)

/-- `FE.len`, `FE.tag` and `FE.cursor` after the frame of a chunk (40_framing.md R123, R127). -/
def advanceFrame (tag : Word32) (len : Nat) (s : State) : State :=
  { s with
    feLen := BitVec.ofNat 32 len
    feTag := tag
    feCursor := BitVec.ofNat 64 (s.feCursor.toNat + 12 + len) }

/-- End of stream (40_framing.md R128). -/
def endOfStream (s : State) : State := if s.endSeen then { s with phase := .final } else s

/-- The chunk step from the dispatch on (40_framing.md R129): the decoder, the checksum's presence (R126), the cursor
(R127), the assembler (42_assembler.md R160), the end of stream (R128). A check that fails raises its error from the
state before the step, so that nothing else changes (60_exceptions.md R237, R238). Runs in phase CHUNKS. -/
def chunkBody (tag : Word32) (decoder : List Byte → Except Cause ChunkRecord) (payload : List Byte) (s : State) :
    StepResult :=
  match decoder payload with
  | .error c => .next (raise c tag s.feCursor s)
  | .ok r =>
    if s.inLen.toNat < s.feCursor.toNat + 12 + payload.length then
      .next (raise .lengthPastBufferEnd tag s.feCursor s)
    else
      match assemble r (advanceFrame tag payload.length s) with
      | .error c => .next (raise c tag s.feCursor s)
      | .ok t => .next (endOfStream t)

end Sys2Proof.Machine
end

