-- ==== Sys2Proof/Machine/Chunks.lean ====
section
/-! DEFINITION. The meanings of the 14 chunk instructions (41_chunk_decoders.md R140 to R153), each over the shared
chunk step of Machine/Framing.lean. -/

namespace Sys2Proof.Machine

/-- IHDR (41_chunk_decoders.md R140, 42_assembler.md R161). -/
def execIhdr (payload : List Byte) (s : State) : StepResult := chunkBody 0x49484452#32 decodeIhdr payload s

/-- PLTE (41_chunk_decoders.md R141, 42_assembler.md R162). -/
def execPlte (payload : List Byte) (s : State) : StepResult := chunkBody 0x504C5445#32 decodePlte payload s

/-- IDAT (41_chunk_decoders.md R142, 42_assembler.md R163). -/
def execIdat (payload : List Byte) (s : State) : StepResult := chunkBody 0x49444154#32 decodeIdat payload s

/-- IEND (41_chunk_decoders.md R143, 42_assembler.md R167). -/
def execIend (payload : List Byte) (s : State) : StepResult := chunkBody 0x49454E44#32 decodeIend payload s

/-- bKGD (41_chunk_decoders.md R144, 42_assembler.md R164). -/
def execBkgd (payload : List Byte) (s : State) : StepResult := chunkBody 0x624B4744#32 decodeBkgd payload s

/-- tRNS (41_chunk_decoders.md R145, 42_assembler.md R165). -/
def execTrns (payload : List Byte) (s : State) : StepResult := chunkBody 0x74524E53#32 decodeTrns payload s

/-- cHRM (41_chunk_decoders.md R146, 42_assembler.md R166). -/
def execChrm (payload : List Byte) (s : State) : StepResult := chunkBody 0x6348524D#32 (decodeIgnorable .chrm) payload s

/-- gAMA (41_chunk_decoders.md R147, 42_assembler.md R166). -/
def execGama (payload : List Byte) (s : State) : StepResult := chunkBody 0x67414D41#32 (decodeIgnorable .gama) payload s

/-- hIST (41_chunk_decoders.md R148, 42_assembler.md R166). -/
def execHist (payload : List Byte) (s : State) : StepResult := chunkBody 0x68495354#32 (decodeIgnorable .hist) payload s

/-- pHYs (41_chunk_decoders.md R149, 42_assembler.md R166). -/
def execPhys (payload : List Byte) (s : State) : StepResult := chunkBody 0x70485973#32 (decodeIgnorable .phys) payload s

/-- sBIT (41_chunk_decoders.md R150, 42_assembler.md R166). -/
def execSbit (payload : List Byte) (s : State) : StepResult := chunkBody 0x73424954#32 (decodeIgnorable .sbit) payload s

/-- tEXt (41_chunk_decoders.md R151, 42_assembler.md R166). -/
def execText (payload : List Byte) (s : State) : StepResult := chunkBody 0x74455874#32 (decodeIgnorable .text) payload s

/-- tIME (41_chunk_decoders.md R152, 42_assembler.md R166). -/
def execTime (payload : List Byte) (s : State) : StepResult := chunkBody 0x74494D45#32 (decodeIgnorable .time) payload s

/-- zTXT (41_chunk_decoders.md R153, 42_assembler.md R166); its tag is the parameter `ZTXT_TAG` (log 15). -/
def execZtxt (payload : List Byte) (s : State) : StepResult :=
  chunkBody Config.ztxtTag (decodeIgnorable .ztxt) payload s

end Sys2Proof.Machine
end

