-- ==== Sys2Proof/Machine/Defilter.lean ====
section
/-! DEFINITION. The scanline defilterer (44_defilter.md): row start, byte step, row advance, completion, and the
meanings of the five scanline instructions. A scanline instruction runs as one row-start step (`DF.col` = 0) and then
one step per byte (70_reset_and_hazards.md R269, log 17). -/

namespace Sys2Proof.Machine

/-! ## Row sequencing -/

/-- `NextRow` (44_defilter.md R211). -/
def nextRow (s : State) : State :=
  { s with
    dfRow := BitVec.ofNat 32 (s.dfRow.toNat + 1)
    dfFpos := BitVec.ofNat 64 (s.dfFpos.toNat + 1 + s.rowbytes.toNat)
    dfOpos := BitVec.ofNat 64 (s.dfOpos.toNat + s.rowbytes.toNat)
    dfCol := 0#64 }

/-- The row start after the filter type is known (44_defilter.md R202). -/
def rowStart (ft : FilterType) (s : State) : State :=
  if s.rowbytes.toNat = 0 then nextRow { s with dfFtype := ft } else { s with dfFtype := ft, dfCol := 1#64 }

/-- `ExcessCheck` and `Finish` (44_defilter.md R211, R212): reached from a row start when `DF.row = HEIGHT`. -/
def finish (s : State) : State :=
  if s.dfFpos.toNat < s.fLen.toNat ∧ s.excessReject = true then
    raise .scanlineDataExcess 0#32 (s.height.setWidth 64) s
  else { s with oLen := s.dfOpos, phase := .done }

/-! ## The byte step -/

/-- Wrapping add, write-back and advance (44_defilter.md R210); the latches hold what the step worked on (10_state.md
R32). -/
def writeBack (n : Neighbours) (pr : Byte) (s : State) : State :=
  let t := { s with
    dfX := n.x, dfA := n.a, dfB := n.b, dfC := n.c, dfPr := pr
    obuf := Memory.write s.obuf s.rawAddr (n.x + pr) }
  if s.dfCol.toNat < s.rowbytes.toNat then { t with dfCol := BitVec.ofNat 64 (s.dfCol.toNat + 1) } else nextRow t

/-- A step of a scanline instruction: the row start where `DF.col` is 0, else a byte step with the predictor `pr`
(44_defilter.md R202, R203, R210). `latch` writes what the predictor latches besides. Runs in phase DEFILTER. -/
def scanline (ft : FilterType) (pr : Neighbours → Byte) (latch : Neighbours → State → State) (s : State) : StepResult :=
  if s.dfCol.toNat = 0 then .next (rowStart ft s)
  else
    match fetchNeighbours s with
    | .error sp => .fault (.unwrittenByte sp)
    | .ok n => .next (writeBack n (pr n) (latch n s))

/-! ## Predictors -/

/-- `(a + b) div 2`, the sum formed in Nat (44_defilter.md R207, 90_conflicts.md C9). -/
def averagePredictor (a b : Byte) : Byte := BitVec.ofNat 8 ((a.toNat + b.toNat) / 2)

/-- `p := a + b - c` (44_defilter.md R209), an exact integer. -/
def paethP (a b c : Byte) : Int := (a.toNat : Int) + (b.toNat : Int) - (c.toNat : Int)

/-- `abs(p - v)` (44_defilter.md R209). -/
def paethDist (a b c v : Byte) : Int := ((paethP a b c - (v.toNat : Int)).natAbs : Int)

/-- `PaethPredictor(a, b, c)` (44_defilter.md R209): left wins ties with above, above wins ties with upper-left. -/
def paethPredictor (a b c : Byte) : Byte :=
  if paethDist a b c a ≤ paethDist a b c b ∧ paethDist a b c a ≤ paethDist a b c c then a
  else if paethDist a b c b ≤ paethDist a b c c then b
  else c

/-- The Paeth intermediates of a byte step (10_state.md R32). -/
def latchPaeth (n : Neighbours) (s : State) : State :=
  { s with
    dfP := paethP n.a n.b n.c
    dfPa := paethDist n.a n.b n.c n.a
    dfPb := paethDist n.a n.b n.c n.b
    dfPc := paethDist n.a n.b n.c n.c }

/-! ## Meanings -/

/-- NONE (44_defilter.md R204). -/
def execNone (s : State) : StepResult := scanline .noFilter (fun _ => 0#8) (fun _ t => t) s

/-- SUB (44_defilter.md R205). -/
def execSub (s : State) : StepResult := scanline .sub (fun n => n.a) (fun _ t => t) s

/-- UP (44_defilter.md R206). -/
def execUp (s : State) : StepResult := scanline .up (fun n => n.b) (fun _ t => t) s

/-- AVG (44_defilter.md R207). -/
def execAvg (s : State) : StepResult := scanline .average (fun n => averagePredictor n.a n.b) (fun _ t => t) s

/-- PAETH (44_defilter.md R208). -/
def execPaeth (s : State) : StepResult :=
  scanline .paeth (fun n => paethPredictor n.a n.b n.c) latchPaeth s

end Sys2Proof.Machine
end

