-- ==== Sys2Proof/Machine/Dispatch.lean ====
section
/-! DEFINITION. One arm per instruction. -/

namespace Sys2Proof.Machine

def exec (i : Instr) (s : State) : Host.Outcome State Fault Refusal :=
  match i with
  | .sig => Sys2Proof.Machine.execSig s
  | .ihdr payload => Sys2Proof.Machine.execIhdr payload s
  | .plte payload => Sys2Proof.Machine.execPlte payload s
  | .idat payload => Sys2Proof.Machine.execIdat payload s
  | .iend payload => Sys2Proof.Machine.execIend payload s
  | .bkgd payload => Sys2Proof.Machine.execBkgd payload s
  | .trns payload => Sys2Proof.Machine.execTrns payload s
  | .chrm payload => Sys2Proof.Machine.execChrm payload s
  | .gama payload => Sys2Proof.Machine.execGama payload s
  | .hist payload => Sys2Proof.Machine.execHist payload s
  | .phys payload => Sys2Proof.Machine.execPhys payload s
  | .sbit payload => Sys2Proof.Machine.execSbit payload s
  | .text payload => Sys2Proof.Machine.execText payload s
  | .time payload => Sys2Proof.Machine.execTime payload s
  | .ztxt payload => Sys2Proof.Machine.execZtxt payload s
  | .rowNone => Sys2Proof.Machine.execNone s
  | .rowSub => Sys2Proof.Machine.execSub s
  | .rowUp => Sys2Proof.Machine.execUp s
  | .rowAvg => Sys2Proof.Machine.execAvg s
  | .rowPaeth => Sys2Proof.Machine.execPaeth s

end Sys2Proof.Machine
end

