-- ==== Sys2Proof/Machine/RowFunction.lean ====
section
/-! DEFINITION. The row function of 44_defilter.md R213, and its inverse, filtering a raw row (R215): pure functions of
the filter type, the row, the row above and `bpp`. The step does not use them; claims compare it with them. -/

namespace Sys2Proof.Machine

/-- `pr` of 44_defilter.md R213. -/
def FilterType.predict (ft : FilterType) (a b c : Byte) : Byte :=
  match ft with
  | .noFilter => 0#8
  | .sub => a
  | .up => b
  | .average => averagePredictor a b
  | .paeth => paethPredictor a b c

/-- `pr` at the next position of a row of which `raw` is reconstructed: with `c = raw.length + 1`, left is
`raw[c - bpp]` if `c > bpp` else 0, above is `prev[c]`, upper-left is `prev[c - bpp]` if `c > bpp` else 0
(44_defilter.md R213; positions are 1-indexed there). -/
def rowPredict (ft : FilterType) (bpp : Nat) (prev raw : List Byte) : Byte :=
  let left := if bpp ≤ raw.length then raw.getD (raw.length - bpp) 0 else 0
  let above := prev.getD raw.length 0
  let upperLeft := if bpp ≤ raw.length then prev.getD (raw.length - bpp) 0 else 0
  ft.predict left above upperLeft

/-- The loop of `DefilterRow` (44_defilter.md R213): `raw` holds the positions already reconstructed. -/
def defilterFrom (ft : FilterType) (bpp : Nat) (prev : List Byte) : List Byte → List Byte → List Byte
  | raw, [] => raw
  | raw, x :: xs => defilterFrom ft bpp prev (raw ++ [x + rowPredict ft bpp prev raw]) xs

/-- `DefilterRow(ft, filt, prev, bpp)` (44_defilter.md R213). -/
def defilterRow (ft : FilterType) (filt prev : List Byte) (bpp : Nat) : List Byte :=
  defilterFrom ft bpp prev [] filt

/-- Filtering the rest of a raw row of which `done` comes before (44_defilter.md R215): `filt[c] = (R[c] - pr) mod 256`,
`pr` from the raw neighbours. -/
def filterFrom (ft : FilterType) (bpp : Nat) (prev : List Byte) : List Byte → List Byte → List Byte
  | _, [] => []
  | done, r :: rs => (r - rowPredict ft bpp prev done) :: filterFrom ft bpp prev (done ++ [r]) rs

/-- A raw row filtered (44_defilter.md R215). -/
def filterRow (ft : FilterType) (raw prev : List Byte) (bpp : Nat) : List Byte := filterFrom ft bpp prev [] raw

/-- The instruction a latched filter type stands for (30_encoding.md R101). -/
def FilterType.instr : FilterType → Instr
  | .noFilter => .rowNone
  | .sub => .rowSub
  | .up => .rowUp
  | .average => .rowAvg
  | .paeth => .rowPaeth

/-- The filter-type byte of a filter type (30_encoding.md R101). -/
def FilterType.byte : FilterType → Byte
  | .noFilter => 0#8
  | .sub => 1#8
  | .up => 2#8
  | .average => 3#8
  | .paeth => 4#8

end Sys2Proof.Machine
end

