-- ==== Sys2Proof/Machine/Fetch.lean ====
section
/-! DEFINITION. Fetching an instruction: the signature in phase SIG (40_framing.md R121), the next chunk in phase CHUNKS
(R122 to R125), the next scanline in phase DEFILTER (44_defilter.md R202). -/

namespace Sys2Proof.Machine

/-- What a fetch finds. -/
inductive Fetch where
  /-- an instruction -/
  | run (i : Instr)
  /-- an error of the spec, raised before any instruction runs -/
  | trap (c : Cause) (tag : Word32) (pos : Word64)
  /-- a byte that nothing has written (log 1) -/
  | unwritten (space : Space)
  /-- no scanline is left: `DF.row = HEIGHT` (44_defilter.md R202) -/
  | finished
  deriving DecidableEq, Repr

/-- The parts of a chunk step up to the dispatch: frame header presence, length extraction, payload slice, type-tag
dispatch (40_framing.md R122 to R125), in that order (R129). -/
def fetchChunk (s : State) : Fetch :=
  if s.inLen.toNat < s.feCursor.toNat + 8 then .trap .lengthPastBufferEnd 0#32 s.feCursor
  else
    match s.inMem.readBytes s.feCursor.toNat 8 with
    | none => .unwritten .input
    | some hdr =>
      if s.inLen.toNat < s.feCursor.toNat + 8 + (chunkLength hdr).toNat then
        .trap .lengthPastBufferEnd (chunkTag hdr) s.feCursor
      else
        match s.inMem.readBytes (s.feCursor.toNat + 8) (chunkLength hdr).toNat with
        | none => .unwritten .input
        | some payload =>
          match decodeChunk Config.ztxtTag (hdr ++ payload) with
          | .ok i => .run i
          | .error _ => .trap .unknownChunkTag (chunkTag hdr) s.feCursor

/-- The row start up to the dispatch: the whole row's presence, then the filter-type byte (44_defilter.md R202). -/
def fetchRow (s : State) : Fetch :=
  if s.dfRow = s.height then .finished
  else if s.fLen.toNat < s.dfFpos.toNat + 1 + s.rowbytes.toNat then
    .trap .scanlineDataShort 0#32 (s.dfRow.setWidth 64)
  else
    match s.fbuf.read s.dfFpos.toNat with
    | none => .unwritten .fbuf
    | some b =>
      match decodeScanline [b] with
      | .ok i => .run i
      | .error _ => .trap .invalidFilterType 0#32 (s.dfRow.setWidth 64)

/-- The next step of phase DEFILTER: a row start, or the scanline instruction in progress, whose filter type `DF.ftype`
holds (10_state.md R31). -/
def fetchScanline (s : State) : Fetch :=
  if s.dfCol.toNat = 0 then fetchRow s else .run s.dfFtype.instr

/-! ## Placing an instruction where the next step fetches it (log 5) -/

/-- IN with `bs` at `addr`, and `IN_LEN` long enough for them. -/
def placeIn (addr : Nat) (bs : List Byte) (s : State) : State :=
  { s with
    inMem := Memory.writeBytes s.inMem addr bs
    inLen := BitVec.ofNat 64 (max s.inLen.toNat (addr + bs.length)) }

/-- A DECODE run about to check its signature, with the bytes of the table word at IN offset 0. -/
def placeSig (w : Nat) (s : State) : State :=
  placeIn 0 (tableInstrBytes 64 w) { s with phase := .sig, cmdLatch := .decode, host := [] }

/-- A DECODE run about to take a chunk step, with the chunk of the table word at `FE.cursor`, which is at least 8 in
phase CHUNKS (40_framing.md R121). -/
def placeChunk (w : Nat) (s : State) : State :=
  let t := { s with
    phase := .chunks, cmdLatch := .decode, host := []
    feCursor := if s.feCursor.toNat < 8 then 8#64 else s.feCursor }
  placeIn t.feCursor.toNat (tableInstrBytes 32 w) t

/-- A DEFILTER run about to start a row, with the table word as the row's filter-type byte and zeros as its filtered
bytes. Where no row is left, the run is placed at row 0 of an image of one row. -/
def placeScanline (w : Nat) (s : State) : State :=
  let t := { s with phase := .defilter, cmdLatch := .defilter, host := [], dfCol := 0#64 }
  let u := if t.dfRow.toNat < t.height.toNat then t else { defilterInit t with height := 1#32 }
  { u with
    fbuf := Memory.writeBytes u.fbuf u.dfFpos.toNat (BitVec.ofNat 8 w :: List.replicate u.rowbytes.toNat 0#8)
    fLen := BitVec.ofNat 64 (max u.fLen.toNat (u.dfFpos.toNat + 1 + u.rowbytes.toNat)) }

/-- The state in which the very next step runs the instruction of a table word. -/
def placeTableWord (nbits w : Nat) (s : State) : State :=
  match tableFormat nbits with
  | none => s
  | some .sig => placeSig w s
  | some .chunk => placeChunk w s
  | some .scanline => placeScanline w s

end Sys2Proof.Machine
end

