-- ==== Sys2Proof/Machine/Flags.lean ====
section
/-! DEFINITION. The status flags and the words computed from registers (10_state.md R34). The six assembler flags are
set by the transitions of Machine/Assembler.lean and by nothing else (10_state.md R25); no arithmetic sets a flag
(44_defilter.md R210). -/

namespace Sys2Proof.Machine

/-- The encoding of `PHASE` (10_state.md R21). -/
def Phase.code : Phase → BitVec 3
  | .idle => 0
  | .sig => 1
  | .chunks => 2
  | .final => 3
  | .inflate => 4
  | .defilter => 5
  | .done => 6
  | .error => 7

/-- The encoding of `CMD_LATCH` (10_state.md R21). -/
def Command.code : Command → BitVec 2
  | .noCommand => 0
  | .decode => 1
  | .defilter => 2
  | .parse => 3

/-- The encoding of `ERR_KIND` (60_exceptions.md R230). -/
def ErrKind.code : ErrKind → BitVec 3
  | .noError => 0
  | .signatureError => 1
  | .formatError => 2
  | .decompressionError => 3
  | .ioError => 4

/-- The encoding of `TRNS_KIND` (10_state.md R27). -/
def TrnsKind.code : TrnsKind → BitVec 2
  | .absent => 0
  | .alphaList => 1
  | .greyKey => 2
  | .rgbKey => 3

/-- The encoding of `BKGD_KIND` (10_state.md R28). -/
def BkgdKind.code : BkgdKind → BitVec 2
  | .absent => 0
  | .paletteIndex => 1
  | .grey => 2
  | .rgb => 3

/-- `STATUS.BUSY`: `PHASE` in 1 to 5 (10_state.md R34). -/
def Phase.busy : Phase → Bool
  | .idle => false
  | .sig => true
  | .chunks => true
  | .final => true
  | .inflate => true
  | .defilter => true
  | .done => false
  | .error => false

/-- One flag as a bit. -/
def bit (b : Bool) : BitVec 1 := BitVec.ofBool b

/-- `STATUS` (10_state.md R34). -/
def statusWord (s : State) : Word32 :=
  (0#18) ++ s.cmdLatch.code ++ bit s.endSeen ++ bit s.trnsSeen ++ bit s.dataSeen ++ bit s.bkgdSeen ++ bit s.palSeen
    ++ bit s.hdrSeen ++ bit (decide (s.phase = .error)) ++ bit (decide (s.phase = .done)) ++ bit s.phase.busy
    ++ s.phase.code

/-- `FMT` (10_state.md R34). -/
def fmtWord (s : State) : Word32 := (0#20) ++ bit s.interlace ++ s.colorModel.code ++ s.bitDepth

/-- `BKGD0` (10_state.md R34): bits 31:16 are `BKGD_R` for kind 3 and `BKGD_GREY` otherwise (log 12). -/
def bkgd0Word (s : State) : Word32 :=
  (if s.bkgdKind = .rgb then s.bkgdR else s.bkgdGrey) ++ s.bkgdIndex ++ (0#6) ++ s.bkgdKind.code

/-- `BKGD1` (10_state.md R34). -/
def bkgd1Word (s : State) : Word32 := s.bkgdB ++ s.bkgdG

/-- `TRNS0` (10_state.md R34): bits 31:16 are `TRNS_R` for kind 3 and `TRNS_GREY` otherwise (log 12). -/
def trns0Word (s : State) : Word32 :=
  (if s.trnsKind = .rgbKey then s.trnsR else s.trnsGrey) ++ (0#14) ++ s.trnsKind.code

/-- `TRNS1` (10_state.md R34). -/
def trns1Word (s : State) : Word32 := s.trnsB ++ s.trnsG

end Sys2Proof.Machine
end

