-- ==== Sys2Proof/Machine/HostPort.lean ====
section
/-! DEFINITION. The host's port: the register map (10_state.md R34), its access rules (R35), and the commands
(40_framing.md R120, 44_defilter.md R201, 70_reset_and_hazards.md R261). -/

namespace Sys2Proof.Machine

/-- The registers of the map, by name (10_state.md R34); a 64-bit quantity takes two, low word first. -/
inductive Reg where
  | ctrl
  | status
  | errKind
  | errCause
  | errTag
  | errPosLo
  | errPosHi
  | cfg
  | inLenLo
  | inLenHi
  | fLenLo
  | fLenHi
  | width
  | height
  | fmt
  | bpp
  | rowbytesLo
  | rowbytesHi
  | cursorLo
  | cursorHi
  | row
  | palLen
  | zlenLo
  | zlenHi
  | oLenLo
  | oLenHi
  | bkgd0
  | bkgd1
  | trns0
  | trns1
  deriving DecidableEq, Repr

/-- All registers, in the order of their offsets 0x00, 0x04, ..., 0x74 (10_state.md R34). -/
def Reg.all : List Reg :=
  [.ctrl, .status, .errKind, .errCause, .errTag, .errPosLo, .errPosHi, .cfg, .inLenLo, .inLenHi]
  ++ [.fLenLo, .fLenHi, .width, .height, .fmt, .bpp, .rowbytesLo, .rowbytesHi, .cursorLo, .cursorHi]
  ++ [.row, .palLen, .zlenLo, .zlenHi, .oLenLo, .oLenHi, .bkgd0, .bkgd1, .trns0, .trns1]

/-- The byte offset of a register (10_state.md R34). -/
def Reg.offset : Reg → Nat
  | .ctrl => 0x00
  | .status => 0x04
  | .errKind => 0x08
  | .errCause => 0x0C
  | .errTag => 0x10
  | .errPosLo => 0x14
  | .errPosHi => 0x18
  | .cfg => 0x1C
  | .inLenLo => 0x20
  | .inLenHi => 0x24
  | .fLenLo => 0x28
  | .fLenHi => 0x2C
  | .width => 0x30
  | .height => 0x34
  | .fmt => 0x38
  | .bpp => 0x3C
  | .rowbytesLo => 0x40
  | .rowbytesHi => 0x44
  | .cursorLo => 0x48
  | .cursorHi => 0x4C
  | .row => 0x50
  | .palLen => 0x54
  | .zlenLo => 0x58
  | .zlenHi => 0x5C
  | .oLenLo => 0x60
  | .oLenHi => 0x64
  | .bkgd0 => 0x68
  | .bkgd1 => 0x6C
  | .trns0 => 0x70
  | .trns1 => 0x74

/-- The register at a byte offset, if there is one. -/
def regAt (off : Nat) : Option Reg := Reg.all.find? (fun r => r.offset = off)

/-! ## Reading -/

/-- The low word of a 64-bit register. -/
def low32 (v : Word64) : Word32 := v.extractLsb' 0 32

/-- The high word of a 64-bit register. -/
def high32 (v : Word64) : Word32 := v.extractLsb' 32 32

/-- What the host reads of a register (10_state.md R34); reads change nothing (R35 d). What a result register reads as
in phase ERROR, or while busy, means nothing (R37, 70_reset_and_hazards.md R267; log 14). -/
def readReg (r : Reg) (s : State) : Word32 :=
  match r with
  | .ctrl => 0#32
  | .status => statusWord s
  | .errKind => s.errKind.code.setWidth 32
  | .errCause => s.errCause.setWidth 32
  | .errTag => s.errTag
  | .errPosLo => low32 s.errPos
  | .errPosHi => high32 s.errPos
  | .cfg => (bit s.excessReject).setWidth 32
  | .inLenLo => low32 s.inLen
  | .inLenHi => high32 s.inLen
  | .fLenLo => low32 s.fLen
  | .fLenHi => high32 s.fLen
  | .width => s.width
  | .height => s.height
  | .fmt => fmtWord s
  | .bpp => s.bpp.setWidth 32
  | .rowbytesLo => low32 s.rowbytes
  | .rowbytesHi => high32 s.rowbytes
  | .cursorLo => low32 s.feCursor
  | .cursorHi => high32 s.feCursor
  | .row => s.dfRow
  | .palLen => s.palLen
  | .zlenLo => low32 s.zlen
  | .zlenHi => high32 s.zlen
  | .oLenLo => low32 s.oLen
  | .oLenHi => high32 s.oLen
  | .bkgd0 => bkgd0Word s
  | .bkgd1 => bkgd1Word s
  | .trns0 => trns0Word s
  | .trns1 => trns1Word s

/-- What the host reads at a byte offset; where no register is, all bits are unlisted and read 0 (log 11). -/
def readOffset (off : Nat) (s : State) : Word32 :=
  match regAt off with
  | some r => readReg r s
  | none => 0#32

/-- The side table `PAL[i]`: r in 23:16, g in 15:8, b in 7:0, for `i < PAL_LEN` (10_state.md R34). -/
def readPal (i : Nat) (s : State) : Option (BitVec 24) := s.pal[i]?.map (fun e => e.r ++ e.g ++ e.b)

/-- The side table `TRNS_ALPHA[i]`, for `i < PAL_LEN` (10_state.md R34). Where `TRNS_KIND` is not 1 the list is empty, so
that no `i` has a value, though a palette may be stored: R34 gives the table for every `i < PAL_LEN` and R27 calls the
store meaningless then, which leaves the value open (DESIGN CHOICE, log 25). -/
def readTrnsAlpha (i : Nat) (s : State) : Option Byte := s.trnsAlpha[i]?

/-- What the host reads of ZBUF at an offset (20_memory.md R60); no value where nothing has been written (log 1). When
the byte means something is log 14. -/
def readZbuf (off : Nat) (s : State) : Option Byte := s.zbuf.read off

/-- What the host reads of OBUF at an offset (20_memory.md R60), likewise. -/
def readObuf (off : Nat) (s : State) : Option Byte := s.obuf.read off

/-! ## Commands -/

/-- `BPP` outside 1 to 8, or a length of 2^63 or more (44_defilter.md R201). -/
def badDefilterParameter (s : State) : Bool :=
  decide (s.bpp.toNat < 1) || decide (8 < s.bpp.toNat) || decide (Config.lengthBound ≤ s.rowbytes.toNat)
    || decide (Config.lengthBound ≤ s.fLen.toNat)

/-- Commands DECODE and PARSE accepted (40_framing.md R120). An `IN_LEN` of 2^63 or more is refused
(93_implementation_defined.md U11; log 7). -/
def startParse (cmd : Command) (s : State) : StepResult :=
  if Config.lengthBound ≤ s.inLen.toNat then .refused .inputTooLong
  else .next { runInit s with cmdLatch := cmd, phase := .sig }

/-- Command DEFILTER accepted (44_defilter.md R201). Where a parameter is illegal, what the command wrote before the
check stays (log 9). -/
def startDefilter (s : State) : State :=
  let t := { runInitKeep s with cmdLatch := .defilter }
  if badDefilterParameter s then raise .invalidDefilterParameter 0#32 0#64 t
  else { defilterInit t with phase := .defilter }

/-- `CTRL.CMD` (10_state.md R34). -/
def ctrlCommand (v : Word32) : Command :=
  if v.extractLsb' 0 2 = 1#2 then .decode
  else if v.extractLsb' 0 2 = 2#2 then .defilter
  else if v.extractLsb' 0 2 = 3#2 then .parse
  else .noCommand

/-- `CTRL.CLEAR` (10_state.md R34). -/
def ctrlClear (v : Word32) : Bool := v.getLsbD 2

/-- A write to `CTRL` (10_state.md R35): CLEAR first and alone (b, c); a command only in IDLE (a). -/
def writeCtrl (v : Word32) (s : State) : StepResult :=
  if ctrlClear v then (if s.phase = .done ∨ s.phase = .error then .next (clear s) else .next s)
  else if s.phase = .idle then
    match ctrlCommand v with
    | .noCommand => .next s
    | .decode => startParse .decode s
    | .defilter => .next (startDefilter s)
    | .parse => startParse .parse s
  else .next s

/-! ## Writing -/

/-- A 64-bit register with its low word replaced. -/
def setLow32 (old : Word64) (v : Word32) : Word64 := high32 old ++ v

/-- A 64-bit register with its high word replaced. -/
def setHigh32 (old : Word64) (v : Word32) : Word64 := v ++ low32 old

/-- A write to an RW register in IDLE; a write to a read-only register changes nothing (10_state.md R34, log 11). -/
def setReg (r : Reg) (v : Word32) (s : State) : State :=
  match r with
  | .cfg => { s with excessReject := v.getLsbD 0 }
  | .inLenLo => { s with inLen := setLow32 s.inLen v }
  | .inLenHi => { s with inLen := setHigh32 s.inLen v }
  | .fLenLo => { s with fLen := setLow32 s.fLen v }
  | .fLenHi => { s with fLen := setHigh32 s.fLen v }
  | .height => { s with height := v }
  | .bpp => { s with bpp := v.extractLsb' 0 4 }
  | .rowbytesLo => { s with rowbytes := setLow32 s.rowbytes v }
  | .rowbytesHi => { s with rowbytes := setHigh32 s.rowbytes v }
  | .ctrl => s
  | .status => s
  | .errKind => s
  | .errCause => s
  | .errTag => s
  | .errPosLo => s
  | .errPosHi => s
  | .width => s
  | .fmt => s
  | .cursorLo => s
  | .cursorHi => s
  | .row => s
  | .palLen => s
  | .zlenLo => s
  | .zlenHi => s
  | .oLenLo => s
  | .oLenHi => s
  | .bkgd0 => s
  | .bkgd1 => s
  | .trns0 => s
  | .trns1 => s

/-- A register write: `CTRL` by `writeCtrl`; the others are ignored while `PHASE` is not IDLE (10_state.md R35 a). -/
def writeReg (r : Reg) (v : Word32) (s : State) : StepResult :=
  if r = .ctrl then writeCtrl v s else if s.phase = .idle then .next (setReg r v s) else .next s

/-- A write at a byte offset; where no register is, nothing changes (log 11). -/
def writeOffset (off : Nat) (v : Word32) (s : State) : StepResult :=
  match regAt off with
  | some r => writeReg r v s
  | none => .next s

/-- The host places a byte in IN (70_reset_and_hazards.md R263); it has no such move while busy (R267). -/
def hostWriteIn (off : Word64) (b : Byte) (s : State) : StepResult :=
  if s.phase.busy then .refused .hostSpaceWriteWhileBusy
  else .next { s with inMem := Memory.write s.inMem off.toNat b }

/-- The host places a byte in FBUF (70_reset_and_hazards.md R264); it has no such move while busy (R267). -/
def hostWriteFbuf (off : Word64) (b : Byte) (s : State) : StepResult :=
  if s.phase.busy then .refused .hostSpaceWriteWhileBusy
  else .next { s with fbuf := Memory.write s.fbuf off.toNat b }

end Sys2Proof.Machine
end

