-- ==== Sys2Proof/Machine/Sequencer.lean ====
section
/-! DEFINITION. One step of the machine: the block's step by phase (10_state.md R21, 70_reset_and_hazards.md R269), or
the host's next move (10_state.md R20; log 4). `inflate` is the external decompressor (43_decompressor.md R185). -/

namespace Sys2Proof.Machine

/-- What becomes of a fetch: the instruction runs, or the error is raised, or the last row is behind. -/
def afterFetch (f : Fetch) (s : State) : StepResult :=
  match f with
  | .run i => exec i s
  | .trap c tag pos => .next (raise c tag pos s)
  | .unwritten sp => .fault (.unwrittenByte sp)
  | .finished => .next (finish s)

/-- The Inflate call (43_decompressor.md R186, R187), then the defilterer's DECODE entry (44_defilter.md R201). A result
of 2^63 bytes or more is refused (93_implementation_defined.md U12; log 7). -/
def inflateCall (inflate : List Byte → InflateResult) (s : State) : StepResult :=
  match s.zbuf.readBytes 0 s.zlen.toNat with
  | none => .fault (.unwrittenByte .zbuf)
  | some z =>
    match inflate z with
    | .err => .next (raise .inflateFailed 0#32 0#64 s)
    | .ok f =>
      if Config.lengthBound ≤ f.length then .refused .inflateTooLong
      else .next (defilterInit { s with
        fbuf := Memory.ofBytes f, fLen := BitVec.ofNat 64 f.length, phase := .defilter })

/-- One step of the block. In IDLE, DONE and ERROR no step of a run executes: the block waits (60_exceptions.md R240,
70_reset_and_hazards.md R260; log 6). -/
def blockStep (inflate : List Byte → InflateResult) (s : State) : StepResult :=
  match s.phase with
  | .idle => .next s
  | .sig => exec .sig s
  | .chunks => afterFetch (fetchChunk s) s
  | .final => finalPass s
  | .inflate => inflateCall inflate s
  | .defilter => afterFetch (fetchScanline s) s
  | .done => .next s
  | .error => .next s

/-- Hard reset (70_reset_and_hazards.md R260): the contents of the spaces are unspecified afterwards, so nothing is left
to read (log 13); the host's later moves still come. -/
def hardReset (s : State) : State := { State.reset with host := s.host }

/-- The host's move `m`, in the state from which it has been taken (log 4). -/
def hostMove (inflate : List Byte → InflateResult) (m : HostMove) (s : State) : StepResult :=
  match m with
  | .writeReg off v => writeOffset off v s
  | .writeIn off b => hostWriteIn off b s
  | .writeFbuf off b => hostWriteFbuf off b s
  | .hardReset => .next (hardReset s)
  | .pass => blockStep inflate s

/-- One step of the machine for a given decompressor: the host's next move, or the block's step where none is pending. -/
def stepWith (inflate : List Byte → InflateResult) (s : State) : StepResult :=
  match s.host with
  | [] => blockStep inflate s
  | m :: ms => hostMove inflate m { s with host := ms }

/-- `n` steps for a given decompressor, stopping at the first fault or refusal. -/
def runWith (inflate : List Byte → InflateResult) : Nat → State → StepResult
  | 0, s => .next s
  | n + 1, s =>
    match stepWith inflate s with
    | .next t => runWith inflate n t
    | .fault r => .fault r
    | .refused r => .refused r

end Sys2Proof.Machine
end

