-- ==== Sys2Proof/Machine/Step.lean ====
section
/-! DEFINITION. The step of the machine, and where a table word is placed for it. -/

namespace Sys2Proof.Machine

/-- One step, with the uninterpreted decompressor (43_decompressor.md R185, log 3). -/
def step (s : State) : Host.Outcome State Fault Refusal := stepWith Config.inflate s

/-- `s` with the instruction of a table word placed so that the very next step fetches and runs it (log 5). -/
def State.withFetchWord (s : State) (nbits w : Nat) : State := placeTableWord nbits w s

end Sys2Proof.Machine
end

