-- ==== Sys2Proof/Machine/Result.lean ====
section
/-! DEFINITION. The result of a run (10_state.md R37): what the host may read when `PHASE = DONE`, and still after CLEAR
(70_reset_and_hazards.md R261). -/

namespace Sys2Proof.Machine

/-- The transparency value (10_state.md R27). -/
inductive Transparency where
  | alphaList (alpha : List Byte)
  | greyKey (v : Half)
  | rgbKey (r g b : Half)
  deriving DecidableEq, Repr

/-- The image description of a DECODE or PARSE run (10_state.md R37). -/
structure ImageInfo where
  width : Word32
  height : Word32
  bitDepth : Byte
  colorModel : ColorModel
  interlace : Bool
  palette : Option (List PalEntry)
  transparency : Option Transparency
  background : Option BackgroundValue
  deriving DecidableEq, Repr

/-- The result by the command that ran (10_state.md R37): DECODE gives the image and its samples, PARSE the description,
`BPP`, `ROWBYTES` and the compressed data (42_assembler.md R175), DEFILTER the samples alone. -/
inductive RunResult where
  | decoded (info : ImageInfo) (samples : List Byte)
  | parsed (info : ImageInfo) (bpp : BitVec 4) (rowbytes : Word64) (compressed : List Byte)
  | defiltered (samples : List Byte)
  deriving DecidableEq, Repr

/-- The stored transparency value, if any. -/
def State.transparencyValue (s : State) : Option Transparency :=
  match s.trnsKind with
  | .absent => none
  | .alphaList => some (.alphaList s.trnsAlpha)
  | .greyKey => some (.greyKey s.trnsGrey)
  | .rgbKey => some (.rgbKey s.trnsR s.trnsG s.trnsB)

/-- The stored background value, if any. -/
def State.backgroundValue (s : State) : Option BackgroundValue :=
  match s.bkgdKind with
  | .absent => none
  | .paletteIndex => some (.paletteIndex s.bkgdIndex)
  | .grey => some (.grey s.bkgdGrey)
  | .rgb => some (.rgb s.bkgdR s.bkgdG s.bkgdB)

/-- The image description, absent parts as none. -/
def State.imageInfo (s : State) : ImageInfo where
  width := s.width
  height := s.height
  bitDepth := s.bitDepth
  colorModel := s.colorModel
  interlace := s.interlace
  palette := if s.palSeen then some s.pal else none
  transparency := if s.trnsSeen then s.transparencyValue else none
  background := if s.bkgdSeen then s.backgroundValue else none

/-- The raw sample buffer `OBUF[0 .. HEIGHT * ROWBYTES - 1]`. -/
def State.samples (s : State) : Option (List Byte) :=
  s.obuf.readBytes 0 (s.height.toNat * s.rowbytes.toNat)

/-- What the registers and spaces hold as the result of a run of command `cmd` (10_state.md R37, 42_assembler.md R175).
It is the run's result in DONE and, since CLEAR leaves registers and spaces as they are, after CLEAR until the host's
next write (70_reset_and_hazards.md R261); the host knows which command it gave. In other states it means nothing
(log 14). -/
def State.resultOf (cmd : Command) (s : State) : Option RunResult :=
  match cmd with
  | .noCommand => none
  | .decode => s.samples.map (RunResult.decoded s.imageInfo)
  | .parse => (s.zbuf.readBytes 0 s.zlen.toNat).map (RunResult.parsed s.imageInfo s.bpp s.rowbytes)
  | .defilter => s.samples.map RunResult.defiltered

/-- The result: none unless `PHASE = DONE`, so that nothing of a failed run can be read (10_state.md R37, log 14). -/
def State.result (s : State) : Option RunResult := if s.phase = .done then s.resultOf s.cmdLatch else none

end Sys2Proof.Machine
end

