-- ==== Sys2Proof/Safety.lean ====
section
/-! DEFINITION. What counts as a safe run: the invariant of the machine, the host's duties as a predicate, the phase
transitions the spec allows, legality of an image, and the names claims use for them. -/

namespace Sys2Proof.Machine

/-! ## Spaces -/

/-- Every offset of a space below `n` holds a byte. -/
abbrev Memory.covers (m : Memory) (n : Nat) : Prop := ∀ a, a < n → (m.read a).isSome = true

/-- All four spaces are in canonical form. -/
abbrev State.spacesWf (s : State) : Prop := s.inMem.wf ∧ s.zbuf.wf ∧ s.fbuf.wf ∧ s.obuf.wf

/-! ## Phases -/

/-- The phases of the chunk walk and of what follows it, up to the Inflate call. -/
def Phase.framing : Phase → Bool
  | .idle => false
  | .sig => true
  | .chunks => true
  | .final => true
  | .inflate => true
  | .defilter => false
  | .done => false
  | .error => false

/-- Which commands can have started a run that is in a phase (10_state.md R21). -/
def latchFits : Phase → Command → Bool
  | .idle, .noCommand => true
  | .sig, .decode => true
  | .sig, .parse => true
  | .chunks, .decode => true
  | .chunks, .parse => true
  | .final, .decode => true
  | .final, .parse => true
  | .inflate, .decode => true
  | .defilter, .decode => true
  | .defilter, .defilter => true
  | .done, .decode => true
  | .done, .defilter => true
  | .done, .parse => true
  | .error, .decode => true
  | .error, .defilter => true
  | .error, .parse => true
  | _, _ => false

/-- The transitions of the table of 10_state.md R21, and staying (a register access, a placed byte, a step that keeps
its phase). Hard reset goes to IDLE from any phase (60_exceptions.md R239) and is no row of that table. -/
def phaseMove : Phase → Phase → Bool
  | .idle, .idle => true
  | .idle, .sig => true
  | .idle, .defilter => true
  | .idle, .error => true
  | .sig, .sig => true
  | .sig, .chunks => true
  | .sig, .error => true
  | .chunks, .chunks => true
  | .chunks, .final => true
  | .chunks, .error => true
  | .final, .final => true
  | .final, .inflate => true
  | .final, .done => true
  | .final, .error => true
  | .inflate, .inflate => true
  | .inflate, .defilter => true
  | .inflate, .error => true
  | .defilter, .defilter => true
  | .defilter, .done => true
  | .defilter, .error => true
  | .done, .done => true
  | .done, .idle => true
  | .error, .error => true
  | .error, .idle => true
  | _, _ => false

/-! ## Legality of an image (42_assembler.md R170 to R172) -/

/-- Everything the final pass demands. -/
abbrev State.legalImage (s : State) : Prop :=
  s.bitDepth ∈ legalDepths s.colorModel
  ∧ ¬(paletteForbiddenFor s.colorModel = true ∧ s.palSeen = true)
  ∧ (s.colorModel = .indexed → s.palSeen = true ∧ s.pal.length ≠ 0 ∧ s.pal.length ≤ 2 ^ s.bitDepth.toNat)

/-! ## The invariant -/

/-- What every reachable state satisfies. -/
structure State.Inv (s : State) : Prop where
  /-- the spaces are canonical -/
  spaces : s.spacesWf
  /-- `CMD_LATCH` fits the phase (10_state.md R21) -/
  latch : latchFits s.phase s.cmdLatch = true
  /-- an error is recorded exactly in phase ERROR (60_exceptions.md R237, R240; 70_reset_and_hazards.md R261, R262) -/
  errPhase : s.phase = .error ↔ s.errKind ≠ .noError
  /-- the error registers are 0 where no error is recorded (10_state.md R33) -/
  errZero : s.errKind = .noError → s.errCause = 0 ∧ s.errTag = 0 ∧ s.errPos = 0
  /-- IoError is never recorded (60_exceptions.md R233) -/
  errNotIo : s.errKind ≠ .ioError
  /-- no flag is set before the header (42_assembler.md R160) -/
  hdrFirst : s.hdrSeen = false →
    s.palSeen = false ∧ s.bkgdSeen = false ∧ s.dataSeen = false ∧ s.trnsSeen = false ∧ s.endSeen = false
  /-- the palette store is empty until a palette is seen (10_state.md R26) -/
  palStore : s.palSeen = false → s.pal = []
  /-- `PAL_LEN` is at most `PAL_MAX` (10_state.md R26) -/
  palMax : s.pal.length ≤ Config.palMax
  /-- a transparency value is stored exactly when one is seen (10_state.md R27) -/
  trnsStore : s.trnsSeen = true ↔ s.trnsKind ≠ .absent
  /-- the alpha list has `PAL_LEN` bytes and belongs to an indexed image with a palette (10_state.md R27) -/
  trnsAlphaLen : s.trnsKind = .alphaList →
    s.trnsAlpha.length = s.pal.length ∧ s.palSeen = true ∧ s.colorModel = .indexed
  /-- a background value is stored exactly when one is seen (10_state.md R28) -/
  bkgdStore : s.bkgdSeen = true ↔ s.bkgdKind ≠ .absent
  /-- the input is shorter than 2^63 bytes in a run that reads it (00_scope.md R5) -/
  inBound : s.phase.framing = true → s.inLen.toNat < Config.lengthBound
  /-- before the signature check the run has seen nothing (70_reset_and_hazards.md R262) -/
  sigPhase : s.phase = .sig → s.feCursor = 0 ∧ s.zlen = 0 ∧ s.hdrSeen = false
  /-- in phase CHUNKS the cursor is past the signature and the End record is still to come (40_framing.md R121, R128) -/
  chunksPhase : s.phase = .chunks → 8 ≤ s.feCursor.toNat ∧ s.endSeen = false
  /-- from phase FINAL on the End record has been seen (40_framing.md R128) -/
  finalPhase : s.phase = .final ∨ s.phase = .inflate → s.endSeen = true
  /-- the cursor stays inside IN (40_framing.md R126, R127) -/
  cursorIn : s.phase = .chunks ∨ s.phase = .final ∨ s.phase = .inflate → s.feCursor.toNat ≤ s.inLen.toNat
  /-- every accumulated byte is a byte of IN already passed, and is there (20_memory.md R62) -/
  accumulator : s.phase.framing = true → s.zlen.toNat ≤ s.feCursor.toNat ∧ s.zbuf.covers s.zlen.toNat
  /-- the compressed data of a PARSE run is there when it is done (42_assembler.md R175) -/
  parsedDone : s.phase = .done → s.cmdLatch = .parse → s.zbuf.covers s.zlen.toNat
  /-- what the final pass hands on is legal, and its parameters are in range (42_assembler.md R170 to R174) -/
  inflatePhase : s.phase = .inflate →
    s.legalImage ∧ 1 ≤ s.bpp.toNat ∧ s.bpp.toNat ≤ 8 ∧ s.rowbytes.toNat < Config.lengthBound
  /-- parameters of phase DEFILTER (44_defilter.md R201) -/
  dfParams : s.phase = .defilter →
    1 ≤ s.bpp.toNat ∧ s.bpp.toNat ≤ 8 ∧ s.rowbytes.toNat < Config.lengthBound ∧ s.fLen.toNat < Config.lengthBound
  /-- position of phase DEFILTER (10_state.md R31) -/
  dfPosition : s.phase = .defilter →
    s.dfRow.toNat ≤ s.height.toNat
    ∧ s.dfFpos.toNat = s.dfRow.toNat * (1 + s.rowbytes.toNat)
    ∧ s.dfOpos.toNat = s.dfRow.toNat * s.rowbytes.toNat
    ∧ s.dfFpos.toNat ≤ s.fLen.toNat
    ∧ s.dfCol.toNat ≤ s.rowbytes.toNat
  /-- inside a row, the row is one of the image and lies wholly in FBUF (44_defilter.md R202) -/
  dfRowInside : s.phase = .defilter → s.dfCol.toNat ≠ 0 →
    s.dfRow.toNat < s.height.toNat ∧ s.dfFpos.toNat + 1 + s.rowbytes.toNat ≤ s.fLen.toNat
  /-- every raw byte before the position is written (44_defilter.md R214) -/
  dfWritten : s.phase = .defilter → s.obuf.covers (s.dfOpos.toNat + (s.dfCol.toNat - 1))
  /-- a finished defiltering run has its whole output (44_defilter.md R215) -/
  outputDone : s.phase = .done → s.cmdLatch ≠ .parse →
    s.oLen.toNat = s.height.toNat * s.rowbytes.toNat ∧ s.obuf.covers s.oLen.toNat

/-! ## The host's duties (70_reset_and_hazards.md R263, R264) -/

/-- The bytes the length registers promise are there: IN in a run that reads it, FBUF in phase DEFILTER. -/
abbrev State.inputsPresent (s : State) : Prop :=
  (s.phase = .sig ∨ s.phase = .chunks → s.inMem.covers s.inLen.toNat)
  ∧ (s.phase = .defilter → s.fbuf.covers s.fLen.toNat)

/-! ## Steps -/

/-- The next state of a result, if it is one. -/
def nextOf (r : StepResult) : Option State :=
  match r with
  | .next s => some s
  | .fault _ => none
  | .refused _ => none

/-- The state without the dead latches (10_state.md R23, R32): equal states here differ in nothing that outlives a step. -/
def State.forgetLatches (s : State) : State :=
  { s with
    feLen := 0, feTag := 0, dfX := 0, dfA := 0, dfB := 0, dfC := 0, dfPr := 0, dfP := 0, dfPa := 0, dfPb := 0, dfPc := 0 }

/-- A result with its state seen through `f`. -/
def mapNext (f : State → State) (r : StepResult) : StepResult :=
  match r with
  | .next s => .next (f s)
  | .fault e => .fault e
  | .refused e => .refused e

/-- The checksum of a chunk with `len` payload bytes lies inside IN (40_framing.md R126). -/
abbrev State.checksumPresent (s : State) (len : Nat) : Prop := s.feCursor.toNat + 12 + len ≤ s.inLen.toNat

/-- The decoder of a chunk instruction accepts its payload (41_chunk_decoders.md R140 to R153). -/
def payloadAccepted : Instr → Bool
  | .sig => false
  | .ihdr p => decide (p.length = 13) && decide (byteAt p 9 ∈ [0#8, 2#8, 3#8, 4#8, 6#8])
  | .plte p => decide (p.length % 3 = 0)
  | .idat _ => true
  | .iend p => decide (p.length = 0)
  | .bkgd p => decide (p.length ∈ [1, 2, 6])
  | .trns _ => true
  | .chrm _ => true
  | .gama _ => true
  | .hist _ => true
  | .phys _ => true
  | .sbit _ => true
  | .text _ => true
  | .time _ => true
  | .ztxt _ => true
  | .rowNone => false
  | .rowSub => false
  | .rowUp => false
  | .rowAvg => false
  | .rowPaeth => false

/-- A register the host may write while IDLE (10_state.md R34, access RW), and the bits of it that exist. -/
def rwMask : Reg → Option Word32
  | .cfg => some 0x00000001#32
  | .inLenLo => some 0xFFFFFFFF#32
  | .inLenHi => some 0xFFFFFFFF#32
  | .fLenLo => some 0xFFFFFFFF#32
  | .fLenHi => some 0xFFFFFFFF#32
  | .height => some 0xFFFFFFFF#32
  | .bpp => some 0x0000000F#32
  | .rowbytesLo => some 0xFFFFFFFF#32
  | .rowbytesHi => some 0xFFFFFFFF#32
  | _ => none

/-- The causes with the kind code and the cause code that the error registers show for each (60_exceptions.md R230,
R231). -/
def errorCodes : List (Cause × Word32 × Word32) :=
  [(.signatureMismatch, 1, 1)]
  ++ [(.unknownChunkTag, 2, 1), (.lengthPastBufferEnd, 2, 2), (.headerLengthNot13, 2, 3), (.invalidColorModelByte, 2, 4),
    (.paletteLengthNotMultipleOf3, 2, 5), (.endNotEmpty, 2, 6), (.backgroundLengthInvalid, 2, 7), (.headerNotFirst, 2, 8)]
  ++ [(.duplicateHeader, 2, 9), (.duplicatePalette, 2, 10), (.paletteAfterBackground, 2, 11), (.backgroundAfterData, 2, 12),
    (.backgroundShapeMismatch, 2, 13), (.transparencyForbidden, 2, 14), (.transparencyShapeMismatch, 2, 15)]
  ++ [(.transparencyBeforePalette, 2, 16), (.illegalBitDepth, 2, 17), (.paletteMissing, 2, 18), (.paletteForbidden, 2, 19),
    (.paletteTooLong, 2, 20), (.invalidFilterType, 2, 21), (.scanlineDataShort, 2, 22), (.scanlineDataExcess, 2, 23)]
  ++ [(.invalidDefilterParameter, 2, 24), (.inflateFailed, 3, 1), (.hostReported, 4, 1)]

/-- The offsets of `CTRL` and of the registers the host may write while IDLE (10_state.md R34, access WO and RW). -/
def writableOffsets : List Nat := [0x00, 0x1C, 0x20, 0x24, 0x28, 0x2C, 0x34, 0x3C, 0x40, 0x44]

/-- What a byte step of a scanline leaves (44_defilter.md R210, R211): the raw byte at its place and no other byte of
OBUF changed; the position advanced by one byte, or to the next row at the row's end; beyond these and the latches,
nothing changed. -/
structure ByteStepResult (s t : State) (n : Neighbours) (pr : Byte) : Prop where
  raw : t.obuf.read s.rawAddr = some (n.x + pr)
  others : ∀ a, a ≠ s.rawAddr → t.obuf.read a = s.obuf.read a
  inRow : s.dfCol.toNat < s.rowbytes.toNat →
    t.dfCol.toNat = s.dfCol.toNat + 1 ∧ t.dfRow = s.dfRow ∧ t.dfFpos = s.dfFpos ∧ t.dfOpos = s.dfOpos
  rowEnd : s.rowbytes.toNat ≤ s.dfCol.toNat →
    t.dfCol = 0 ∧ t.dfRow = s.dfRow + 1 ∧ t.dfFpos = s.dfFpos + 1 + s.rowbytes ∧ t.dfOpos = s.dfOpos + s.rowbytes
  latches : t.dfX = n.x ∧ t.dfA = n.a ∧ t.dfB = n.b ∧ t.dfC = n.c ∧ t.dfPr = pr
  frame : t = { s with
    obuf := t.obuf, dfCol := t.dfCol, dfRow := t.dfRow, dfFpos := t.dfFpos, dfOpos := t.dfOpos
    dfX := t.dfX, dfA := t.dfA, dfB := t.dfB, dfC := t.dfC, dfPr := t.dfPr
    dfP := t.dfP, dfPa := t.dfPa, dfPb := t.dfPb, dfPc := t.dfPc }

/-! ## Rows of the image -/

/-- The filtered bytes of the current row, `FBUF[q+1 .. q+ROWBYTES]` (30_encoding.md R100). -/
def State.filteredRow (s : State) : Option (List Byte) := s.fbuf.readBytes (s.dfFpos.toNat + 1) s.rowbytes.toNat

/-- The row above the current one: zeros for row 0, else the reconstructed row (44_defilter.md R213). -/
def State.rowAbove (s : State) : Option (List Byte) :=
  if s.dfRow.toNat = 0 then some (List.replicate s.rowbytes.toNat 0)
  else s.obuf.readBytes (s.dfOpos.toNat - s.rowbytes.toNat) s.rowbytes.toNat

/-- Reconstructing the rows of a decompressed buffer one after the other (44_defilter.md R213): `rows` are (filter type,
filtered bytes), `prev` the row above the first. -/
def defilterRows (bpp : Nat) : List Byte → List (FilterType × List Byte) → List Byte
  | _, [] => []
  | prev, (ft, filt) :: rest =>
    defilterRow ft filt prev bpp ++ defilterRows bpp (defilterRow ft filt prev bpp) rest

/-- The decompressed buffer of such rows: each a filter-type byte and its filtered bytes (20_memory.md R71). -/
def encodeRows : List (FilterType × List Byte) → List Byte
  | [] => []
  | (ft, filt) :: rest => ft.byte :: (filt ++ encodeRows rest)

end Sys2Proof.Machine
end

