-- ==== Sys2Proof/Certificates/Slice0/Obligations.lean ====
section
/-! DEFINITION. The statements about PFD, from the numbered rules of the spec. Each docstring names the rules. A step
`step s` with `s.host = []` is a step of the block itself; `stepWith inflate` is the step for any decompressor. -/

open Sys2Proof Sys2Proof.Machine

/-! ## Encoding -/

/-- Words written out from the spec's formats decode to the instructions they stand for, all five filter types among them
(30_encoding.md R90, R91, R93, R100, R101). The tag bytes and filter numbers are the spec's own reading (log 21). -/
def Obligations.WrittenOutWordsDecode : Prop :=
  decode Config.ztxtTag .sig [0x89#8, 0x50#8, 0x4E#8, 0x47#8, 0x0D#8, 0x0A#8, 0x1A#8, 0x0A#8] = .ok .sig
  ∧ decode Config.ztxtTag .chunk
      [0x00#8, 0x00#8, 0x00#8, 0x00#8, 0x49#8, 0x45#8, 0x4E#8, 0x44#8, 0xAE#8, 0x42#8, 0x60#8, 0x82#8]
      = .ok (.iend [])
  ∧ decode Config.ztxtTag .chunk
      [0x00#8, 0x00#8, 0x00#8, 0x01#8, 0x62#8, 0x4B#8, 0x47#8, 0x44#8, 0x02#8, 0x66#8, 0x0B#8, 0x7C#8, 0x64#8]
      = .ok (.bkgd [0x02#8])
  ∧ decode Config.ztxtTag .chunk [0x00#8, 0x00#8, 0x00#8, 0x00#8, 0x7A#8, 0x54#8, 0x58#8, 0x54#8] = .ok (.ztxt [])
  ∧ decode Config.ztxtTag .scanline [0x00#8, 0x2A#8] = .ok .rowNone
  ∧ decode Config.ztxtTag .scanline [0x01#8, 0x1B#8, 0x40#8] = .ok .rowSub
  ∧ decode Config.ztxtTag .scanline [0x02#8, 0x20#8] = .ok .rowUp
  ∧ decode Config.ztxtTag .scanline [0x03#8, 0x01#8, 0x00#8] = .ok .rowAvg
  ∧ decode Config.ztxtTag .scanline [0x04#8, 0x01#8, 0xFF#8] = .ok .rowPaeth

/-- Decoding the encoding of any well-formed instruction gives it back, for every payload, every checksum, whatever
follows, and every value of the parameter `ZTXT_TAG` that is none of the other 13 tags (30_encoding.md R90 to R93, R100,
R101; 40_framing.md R126). -/
def Obligations.DecodeOfEncodeIsTheInstruction : Prop :=
  ∀ (ztxt crc : Word32) (i : Instr) (rest : List Byte), WellFormed i = true → ztxt ∉ fixedTags →
    decode ztxt i.format (encodeWith ztxt crc i ++ rest) = .ok i

/-- The other direction: bytes that decode to an instruction begin with its encoding (for a chunk, with its length, tag
and payload; the checksum is not looked at), and the instruction is well formed (30_encoding.md R90 to R93, R100). -/
def Obligations.DecodedBytesBeginWithTheEncoding : Prop :=
  ∀ (ztxt : Word32) (f : Format) (bs : List Byte) (i : Instr), decode ztxt f bs = .ok i →
    i.format = f ∧ WellFormed i = true
    ∧ ∃ rest, bs = (if f = .chunk then encodeFrame ztxt i else encodeWith ztxt 0 i) ++ rest

/-! ## Fetching -/

/-- A step runs the decoded instruction. In phase CHUNKS: when bytes of IN from `FE.cursor` on, inside `IN_LEN`, decode to
a chunk instruction, the step is exec of it. In phase DEFILTER: at a row start that lies inside FBUF, when the
filter-type byte decodes to a scanline instruction, the step is exec of it; inside a row it is exec of the instruction
`DF.ftype` holds. In phase SIG it is exec of SIG. (40_framing.md R121, R125, R129; 44_defilter.md R202.) Last, for every
decompressor: a step under the host's move `pass` is the block's step, with the host's later moves kept (log 4), so that
every statement with the premise `host = []` speaks of those steps too. -/
def Obligations.StepRunsTheDecodedInstruction : Prop :=
  (∀ (s : State) (bs : List Byte) (i : Instr), s.phase = .chunks → s.host = [] →
    s.inMem.readBytes s.feCursor.toNat bs.length = some bs → s.feCursor.toNat + bs.length ≤ s.inLen.toNat →
    decode Config.ztxtTag .chunk bs = .ok i → step s = exec i s)
  ∧ (∀ (s : State) (b : Byte) (i : Instr), s.phase = .defilter → s.host = [] → s.dfCol = 0 → s.dfRow ≠ s.height →
    s.dfFpos.toNat + 1 + s.rowbytes.toNat ≤ s.fLen.toNat → s.fbuf.read s.dfFpos.toNat = some b →
    decode Config.ztxtTag .scanline [b] = .ok i → step s = exec i s)
  ∧ (∀ s : State, s.phase = .defilter → s.host = [] → s.dfCol ≠ 0 → step s = exec s.dfFtype.instr s)
  ∧ (∀ s : State, s.phase = .sig → s.host = [] → step s = exec .sig s)
  ∧ (∀ (inflate : List Byte → InflateResult) (s : State) (ms : List HostMove), s.host = .pass :: ms →
    stepWith inflate s = mapNext (fun t => { t with host := ms }) (stepWith inflate { s with host := [] }))

/-- The checks of a chunk step before the dispatch, in their order: fewer than 8 bytes left (R122), payload past the end
(R124), a tag that is none of the 14 (R125); the tag is reported once it has been read (40_framing.md R122, R124, R125,
R129; 60_exceptions.md R235). -/
def Obligations.FrameErrorsInOrder : Prop :=
  ∀ s : State, s.phase = .chunks → s.host = [] →
    (s.inLen.toNat < s.feCursor.toNat + 8 → step s = .next (raise .lengthPastBufferEnd 0 s.feCursor s))
    ∧ ∀ hdr : List Byte, s.feCursor.toNat + 8 ≤ s.inLen.toNat → s.inMem.readBytes s.feCursor.toNat 8 = some hdr →
      (s.inLen.toNat < s.feCursor.toNat + 8 + (chunkLength hdr).toNat →
        step s = .next (raise .lengthPastBufferEnd (chunkTag hdr) s.feCursor s))
      ∧ ∀ payload : List Byte, s.feCursor.toNat + 8 + (chunkLength hdr).toNat ≤ s.inLen.toNat →
        s.inMem.readBytes (s.feCursor.toNat + 8) (chunkLength hdr).toNat = some payload →
        chunkTag hdr ∉ fixedTags → chunkTag hdr ≠ Config.ztxtTag →
        step s = .next (raise .unknownChunkTag (chunkTag hdr) s.feCursor s)

/-! ## SIG -/

/-- The signature check (40_framing.md R121): fewer than 8 bytes, or any byte different, is SignatureError; the signature
moves the cursor to 8 and the phase to CHUNKS, and nothing else. (The short buffer is decision D10.) -/
def Obligations.SignatureCheck : Prop :=
  ∀ (s : State) (bs : List Byte),
    (s.inLen.toNat < 8 → exec .sig s = .next (raise .signatureMismatch 0 0 s))
    ∧ (8 ≤ s.inLen.toNat → s.inMem.readBytes 0 8 = some bs →
      (bs = [0x89#8, 0x50#8, 0x4E#8, 0x47#8, 0x0D#8, 0x0A#8, 0x1A#8, 0x0A#8] →
        exec .sig s = .next { s with feCursor := 8, phase := .chunks })
      ∧ (bs ≠ [0x89#8, 0x50#8, 0x4E#8, 0x47#8, 0x0D#8, 0x0A#8, 0x1A#8, 0x0A#8] →
        exec .sig s = .next (raise .signatureMismatch 0 0 s)))

/-! ## Chunks -/

/-- IHDR, the first record of its stream: all 13 payload bytes, every legal colour-model byte (30_encoding.md R94, R95;
41_chunk_decoders.md R140; 42_assembler.md R161). Everything but the header fields, the flag, the cursor and the frame's
latches is unchanged. -/
def Obligations.IhdrStoresTheHeader : Prop :=
  ∀ (s : State) (w0 w1 w2 w3 h0 h1 h2 h3 d m x y il : Byte) (cm : ColorModel),
    (m, cm) ∈ [(0#8, ColorModel.greyscale), (2#8, ColorModel.rgb), (3#8, ColorModel.indexed),
      (4#8, ColorModel.greyAlpha), (6#8, ColorModel.rgbAlpha)] →
    s.hdrSeen = false → s.checksumPresent 13 →
    exec (.ihdr [w0, w1, w2, w3, h0, h1, h2, h3, d, m, x, y, il]) s
      = .next (endOfStream { advanceFrame 0x49484452#32 13 s with
          width := w0 ++ w1 ++ w2 ++ w3, height := h0 ++ h1 ++ h2 ++ h3, bitDepth := d, colorModel := cm
          interlace := decide (il.toNat = 1), hdrSeen := true })

/-- Where IHDR fails: a length other than 13, then a colour-model byte other than 0, 2, 3, 4, 6, both whether or not the
checksum is there; then a second header (41_chunk_decoders.md R140; 42_assembler.md R160; 40_framing.md R129). -/
def Obligations.IhdrErrors : Prop :=
  ∀ (s : State) (p : List Byte),
    (p.length ≠ 13 → exec (.ihdr p) s = .next (raise .headerLengthNot13 0x49484452#32 s.feCursor s))
    ∧ (p.length = 13 → p.getD 9 0 ∉ [0#8, 2#8, 3#8, 4#8, 6#8] →
      exec (.ihdr p) s = .next (raise .invalidColorModelByte 0x49484452#32 s.feCursor s))
    ∧ (p.length = 13 → p.getD 9 0 ∈ [0#8, 2#8, 3#8, 4#8, 6#8] → s.checksumPresent 13 → s.hdrSeen = true →
      exec (.ihdr p) s = .next (raise .duplicateHeader 0x49484452#32 s.feCursor s))

/-- PLTE stores its entries, three bytes each, however many (30_encoding.md R96; 41_chunk_decoders.md R141;
42_assembler.md R162). -/
def Obligations.PlteStoresThePalette : Prop :=
  ∀ (s : State) (entries : List PalEntry), s.hdrSeen = true → s.palSeen = false → s.bkgdSeen = false →
    s.checksumPresent (3 * entries.length) →
    exec (.plte (entries.flatMap (fun e => [e.r, e.g, e.b]))) s
      = .next (endOfStream { advanceFrame 0x504C5445#32 (3 * entries.length) s with pal := entries, palSeen := true })

/-- Where PLTE fails: a length that is no multiple of 3, then a second palette, then a palette after a background
(41_chunk_decoders.md R141; 42_assembler.md R162). -/
def Obligations.PlteErrors : Prop :=
  ∀ (s : State) (p : List Byte),
    (p.length % 3 ≠ 0 → exec (.plte p) s = .next (raise .paletteLengthNotMultipleOf3 0x504C5445#32 s.feCursor s))
    ∧ (p.length % 3 = 0 → s.hdrSeen = true → s.checksumPresent p.length → s.palSeen = true →
      exec (.plte p) s = .next (raise .duplicatePalette 0x504C5445#32 s.feCursor s))
    ∧ (p.length % 3 = 0 → s.hdrSeen = true → s.checksumPresent p.length → s.palSeen = false → s.bkgdSeen = true →
      exec (.plte p) s = .next (raise .paletteAfterBackground 0x504C5445#32 s.feCursor s))

/-- IDAT appends its payload to ZBUF at `ZLEN`, and nothing else of ZBUF changes (41_chunk_decoders.md R142;
42_assembler.md R163). The premise on `ZLEN` holds in every run, where `ZLEN <= IN_LEN < 2^63` (20_memory.md R62). -/
def Obligations.IdatAppendsToZbuf : Prop :=
  ∀ (s : State) (p : List Byte), s.hdrSeen = true → s.checksumPresent p.length → s.zlen.toNat + p.length < 2 ^ 64 →
    ∃ t, exec (.idat p) s = .next t
      ∧ t.zlen.toNat = s.zlen.toNat + p.length
      ∧ t.dataSeen = true
      ∧ (∀ k, k < p.length → t.zbuf.read (s.zlen.toNat + k) = p[k]?)
      ∧ (∀ a, a < s.zlen.toNat ∨ s.zlen.toNat + p.length ≤ a → t.zbuf.read a = s.zbuf.read a)
      ∧ t = { endOfStream (advanceFrame 0x49444154#32 p.length s) with
          zbuf := t.zbuf, zlen := t.zlen, dataSeen := t.dataSeen }

/-- IEND with an empty payload ends the chunk walk, where its checksum is there; a missing checksum is an error, and so
is any other length, whether or not the checksum is there (41_chunk_decoders.md R143; 42_assembler.md R167; 40_framing.md
R126, R128). That a missing checksum is this error is decision D9; that EndNotEmpty comes before it is decision D8. -/
def Obligations.IendEndsTheChunkWalk : Prop :=
  ∀ (s : State) (p : List Byte),
    (s.hdrSeen = true → s.checksumPresent 0 →
      exec (.iend []) s = .next { advanceFrame 0x49454E44#32 0 s with endSeen := true, phase := .final })
    ∧ (s.inLen.toNat < s.feCursor.toNat + 12 →
      exec (.iend []) s = .next (raise .lengthPastBufferEnd 0x49454E44#32 s.feCursor s))
    ∧ (p ≠ [] → exec (.iend p) s = .next (raise .endNotEmpty 0x49454E44#32 s.feCursor s))

/-- bKGD stores the value its length selects, where that shape fits the colour model and no data has been seen; a second
one overwrites the first (30_encoding.md R97; 41_chunk_decoders.md R144; 42_assembler.md R164). -/
def Obligations.BkgdStoresTheBackground : Prop :=
  ∀ (s : State) (b0 b1 b2 b3 b4 b5 : Byte), s.hdrSeen = true → s.dataSeen = false →
    (s.colorModel = .indexed → s.checksumPresent 1 →
      exec (.bkgd [b0]) s = .next (endOfStream { advanceFrame 0x624B4744#32 1 s with
        bkgdKind := .paletteIndex, bkgdIndex := b0, bkgdSeen := true }))
    ∧ (s.colorModel = .greyscale ∨ s.colorModel = .greyAlpha → s.checksumPresent 2 →
      exec (.bkgd [b0, b1]) s = .next (endOfStream { advanceFrame 0x624B4744#32 2 s with
        bkgdKind := .grey, bkgdGrey := b0 ++ b1, bkgdSeen := true }))
    ∧ (s.colorModel = .rgb ∨ s.colorModel = .rgbAlpha → s.checksumPresent 6 →
      exec (.bkgd [b0, b1, b2, b3, b4, b5]) s = .next (endOfStream { advanceFrame 0x624B4744#32 6 s with
        bkgdKind := .rgb, bkgdR := b0 ++ b1, bkgdG := b2 ++ b3, bkgdB := b4 ++ b5, bkgdSeen := true }))

/-- Where bKGD fails: a length other than 1, 2, 6; a background after data; a shape that does not fit the colour model
(41_chunk_decoders.md R144; 42_assembler.md R164). -/
def Obligations.BkgdErrors : Prop :=
  ∀ (s : State) (p : List Byte),
    (p.length ∉ [1, 2, 6] → exec (.bkgd p) s = .next (raise .backgroundLengthInvalid 0x624B4744#32 s.feCursor s))
    ∧ (p.length ∈ [1, 2, 6] → s.hdrSeen = true → s.checksumPresent p.length → s.dataSeen = true →
      exec (.bkgd p) s = .next (raise .backgroundAfterData 0x624B4744#32 s.feCursor s))
    ∧ (p.length ∈ [1, 2, 6] → s.hdrSeen = true → s.checksumPresent p.length → s.dataSeen = false →
      (s.colorModel, p.length) ∉ [(ColorModel.indexed, 1), (ColorModel.greyscale, 2), (ColorModel.greyAlpha, 2),
        (ColorModel.rgb, 6), (ColorModel.rgbAlpha, 6)] →
      exec (.bkgd p) s = .next (raise .backgroundShapeMismatch 0x624B4744#32 s.feCursor s))

/-- tRNS by colour model: an indexed image stores the alpha list padded with 255 to `PAL_LEN` bytes, a greyscale image one
key, an RGB image three (30_encoding.md R98; 42_assembler.md R165). -/
def Obligations.TrnsStoresTheTransparency : Prop :=
  ∀ (s : State) (raw : List Byte) (b0 b1 b2 b3 b4 b5 : Byte), s.hdrSeen = true →
    (s.colorModel = .indexed → s.palSeen = true → raw.length ≤ s.pal.length → s.checksumPresent raw.length →
      ∃ t, exec (.trns raw) s = .next t
        ∧ t.trnsAlpha.length = s.pal.length
        ∧ (∀ k, k < s.pal.length → t.trnsAlpha[k]? = some (raw.getD k 255))
        ∧ t = { endOfStream (advanceFrame 0x74524E53#32 raw.length s) with
            trnsKind := .alphaList, trnsAlpha := t.trnsAlpha, trnsSeen := true })
    ∧ (s.colorModel = .greyscale → s.checksumPresent 2 →
      exec (.trns [b0, b1]) s = .next (endOfStream { advanceFrame 0x74524E53#32 2 s with
        trnsKind := .greyKey, trnsGrey := b0 ++ b1, trnsSeen := true }))
    ∧ (s.colorModel = .rgb → s.checksumPresent 6 →
      exec (.trns [b0, b1, b2, b3, b4, b5]) s = .next (endOfStream { advanceFrame 0x74524E53#32 6 s with
        trnsKind := .rgbKey, trnsR := b0 ++ b1, trnsG := b2 ++ b3, trnsB := b4 ++ b5, trnsSeen := true }))

/-- Where tRNS fails: an alpha-bearing model; an indexed image with no palette yet, or more bytes than entries; a
greyscale image with a length other than 2, an RGB image with one other than 6 (42_assembler.md R165). -/
def Obligations.TrnsErrors : Prop :=
  ∀ (s : State) (raw : List Byte), s.hdrSeen = true → s.checksumPresent raw.length →
    (s.colorModel = .greyAlpha ∨ s.colorModel = .rgbAlpha →
      exec (.trns raw) s = .next (raise .transparencyForbidden 0x74524E53#32 s.feCursor s))
    ∧ (s.colorModel = .indexed → s.palSeen = false →
      exec (.trns raw) s = .next (raise .transparencyBeforePalette 0x74524E53#32 s.feCursor s))
    ∧ ((s.colorModel = .indexed ∧ s.palSeen = true ∧ s.pal.length < raw.length)
        ∨ (s.colorModel = .greyscale ∧ raw.length ≠ 2) ∨ (s.colorModel = .rgb ∧ raw.length ≠ 6) →
      exec (.trns raw) s = .next (raise .transparencyShapeMismatch 0x74524E53#32 s.feCursor s))

/-- The eight ignorable chunks, of any payload, change the cursor and the frame's latches and nothing else
(41_chunk_decoders.md R146 to R153; 42_assembler.md R166; 40_framing.md R127). -/
def Obligations.IgnorableChunksOnlyAdvance : Prop :=
  ∀ (s : State) (p : List Byte), s.hdrSeen = true → s.checksumPresent p.length →
    ∀ it ∈ [(Instr.chrm p, 0x6348524D#32), (Instr.gama p, 0x67414D41#32), (Instr.hist p, 0x68495354#32),
        (Instr.phys p, 0x70485973#32), (Instr.sbit p, 0x73424954#32), (Instr.text p, 0x74455874#32),
        (Instr.time p, 0x74494D45#32), (Instr.ztxt p, 0x7A545854#32)],
      exec it.1 s = .next (endOfStream (advanceFrame it.2 p.length s))

/-- The header-first gate: before a header, every other chunk whose decoder accepts it is HeaderNotFirst (42_assembler.md
R160). -/
def Obligations.HeaderFirstGate : Prop :=
  ∀ (s : State) (i : Instr), payloadAccepted i = true → (∀ p, i ≠ .ihdr p) → s.hdrSeen = false →
    s.checksumPresent i.payload.length →
    exec i s = .next (raise .headerNotFirst (i.tag32 Config.ztxtTag) s.feCursor s)

/-- The checksum must be there for every chunk, the End chunk included; the check comes after the decoder's own and before
the assembler's (40_framing.md R126, R129). -/
def Obligations.MissingChecksumIsAnError : Prop :=
  ∀ (s : State) (i : Instr), payloadAccepted i = true → s.inLen.toNat < s.feCursor.toNat + 12 + i.payload.length →
    exec i s = .next (raise .lengthPastBufferEnd (i.tag32 Config.ztxtTag) s.feCursor s)

/-- A chunk step depends on the length, the tag and the payload of its chunk and on no other byte of IN: neither the
checksum nor anything after it, nor anything before (40_framing.md R126, R128; 93_implementation_defined.md U17, U18). -/
def Obligations.ChunkStepReadsOnlyItsFrame : Prop :=
  ∀ (s : State) (m : Memory) (hdr : List Byte), s.phase = .chunks → s.host = [] →
    s.inMem.readBytes s.feCursor.toNat 8 = some hdr →
    (∀ a, s.feCursor.toNat ≤ a → a < s.feCursor.toNat + 8 + (chunkLength hdr).toNat → m.read a = s.inMem.read a) →
    step { s with inMem := m } = mapNext (fun t => { t with inMem := m }) (step s)

/-- A chunk step that raises no error latches the length and the tag of its chunk, the big-endian numbers of the eight
bytes at the cursor, and moves the cursor by 12 plus that length, never beyond `IN_LEN` (40_framing.md R123, R126, R127,
R129). That a completed step leaves the latches so is log 10. -/
def Obligations.CompletedChunkAdvancesTheCursor : Prop :=
  ∀ s t : State, s.phase = .chunks → s.host = [] → step s = .next t → t.phase ≠ .error →
    t.feCursor.toNat = s.feCursor.toNat + 12 + t.feLen.toNat ∧ t.feCursor.toNat ≤ t.inLen.toNat
    ∧ t.inLen = s.inLen
    ∧ ∀ l0 l1 l2 l3 t0 t1 t2 t3 : Byte, s.inMem.readBytes s.feCursor.toNat 8 = some [l0, l1, l2, l3, t0, t1, t2, t3] →
      t.feLen = l0 ++ l1 ++ l2 ++ l3 ∧ t.feTag = t0 ++ t1 ++ t2 ++ t3
      ∧ t.feCursor.toNat = s.feCursor.toNat + 12 + (l0 ++ l1 ++ l2 ++ l3).toNat

/-! ## The final pass -/

/-- The final pass goes on exactly when the image is legal: depth legal for the model, palette absent where forbidden,
present, non-empty and no longer than 2^depth where required (42_assembler.md R170 to R173, R175, R176). -/
def Obligations.FinalPassAcceptsExactlyLegalImages : Prop :=
  ∀ s : State, s.phase = .final → s.host = [] → s.cmdLatch = .decode ∨ s.cmdLatch = .parse →
    ((∃ t, step s = .next t ∧ t.phase ≠ .error) ↔
      (s.colorModel, s.bitDepth.toNat) ∈ [(ColorModel.greyscale, 1), (ColorModel.greyscale, 2), (ColorModel.greyscale, 4),
          (ColorModel.greyscale, 8), (ColorModel.greyscale, 16), (ColorModel.greyAlpha, 8), (ColorModel.greyAlpha, 16),
          (ColorModel.rgb, 8), (ColorModel.rgb, 16), (ColorModel.rgbAlpha, 8), (ColorModel.rgbAlpha, 16),
          (ColorModel.indexed, 1), (ColorModel.indexed, 2), (ColorModel.indexed, 4), (ColorModel.indexed, 8)]
      ∧ (s.colorModel = .greyscale ∨ s.colorModel = .greyAlpha → s.palSeen = false)
      ∧ (s.colorModel = .indexed → s.palSeen = true ∧ 1 ≤ s.pal.length ∧ s.pal.length ≤ 2 ^ s.bitDepth.toNat))

/-- The final pass reports its first failing check, with tag 0 and the final cursor: bit depth, then palette presence,
then palette size (42_assembler.md R170 to R173; 10_state.md R33). -/
def Obligations.FinalPassReportsTheFirstFailure : Prop :=
  ∀ s : State, s.phase = .final → s.host = [] →
    (s.bitDepth ∉ legalDepths s.colorModel → step s = .next (raise .illegalBitDepth 0 s.feCursor s))
    ∧ (s.bitDepth ∈ legalDepths s.colorModel →
      (s.colorModel = .greyscale ∨ s.colorModel = .greyAlpha → s.palSeen = true →
        step s = .next (raise .paletteForbidden 0 s.feCursor s))
      ∧ (s.colorModel = .indexed → s.palSeen = false ∨ s.pal.length = 0 →
        step s = .next (raise .paletteMissing 0 s.feCursor s))
      ∧ (s.colorModel = .indexed → s.palSeen = true → 2 ^ s.bitDepth.toNat < s.pal.length →
        step s = .next (raise .paletteTooLong 0 s.feCursor s)))

/-- On a legal image the final pass sets `BPP` and `ROWBYTES` from the header and hands over: DECODE to INFLATE, PARSE to
DONE; nothing else changes (42_assembler.md R174 to R176). `BPP` is 1 to 8. -/
def Obligations.FinalPassDerivesTheRowParameters : Prop :=
  ∀ (s : State) (channels : Nat), s.phase = .final → s.host = [] → s.cmdLatch = .decode ∨ s.cmdLatch = .parse →
    s.legalImage →
    (s.colorModel, channels) ∈ [(ColorModel.greyscale, 1), (ColorModel.indexed, 1), (ColorModel.greyAlpha, 2),
      (ColorModel.rgb, 3), (ColorModel.rgbAlpha, 4)] →
    ∃ t, step s = .next t
      ∧ t.bpp.toNat = max 1 (channels * s.bitDepth.toNat / 8)
      ∧ 1 ≤ t.bpp.toNat ∧ t.bpp.toNat ≤ 8
      ∧ t.rowbytes.toNat = (s.width.toNat * (channels * s.bitDepth.toNat) + 7) / 8
      ∧ t = { s with
          bpp := t.bpp, rowbytes := t.rowbytes, phase := if s.cmdLatch = .parse then .done else .inflate }

/-! ## The decompressor -/

/-- The Inflate call, for every decompressor: its error is DecompressionError; its result becomes the whole of FBUF, and
the defilterer starts at row 0 (43_decompressor.md R186, R187; 44_defilter.md R201). -/
def Obligations.InflateCallOutcome : Prop :=
  ∀ (inflate : List Byte → InflateResult) (s : State) (z : List Byte), s.phase = .inflate → s.host = [] →
    s.zbuf.readBytes 0 s.zlen.toNat = some z →
    (inflate z = .err → stepWith inflate s = .next (raise .inflateFailed 0 0 s))
    ∧ ∀ f, inflate z = .ok f → f.length < 2 ^ 63 →
      ∃ t, stepWith inflate s = .next t
        ∧ (∀ a, t.fbuf.read a = f[a]?) ∧ t.fLen.toNat = f.length
        ∧ t = { s with
            fbuf := t.fbuf, fLen := t.fLen, phase := .defilter
            dfRow := 0, dfCol := 0, dfFpos := 0, dfOpos := 0, dfFtype := .noFilter }

/-! ## The defilterer -/

/-- The Paeth predictor (44_defilter.md R209): with p = a + b - c an exact integer, left if its distance from p is at most
both others, else above if its distance is at most that of upper-left, else upper-left. The distances are |b - c|,
|a - c|, |a + b - 2c|, all in the rule's ranges; the result is one of the three; three equal bytes give that byte. -/
def Obligations.PaethPredictorRule : Prop :=
  ∀ a b c : Byte,
    let p : Int := (a.toNat : Int) + b.toNat - c.toNat
    let pa := (p - a.toNat).natAbs
    let pb := (p - b.toNat).natAbs
    let pc := (p - c.toNat).natAbs
    (pa ≤ pb ∧ pa ≤ pc → paethPredictor a b c = a)
    ∧ (¬(pa ≤ pb ∧ pa ≤ pc) ∧ pb ≤ pc → paethPredictor a b c = b)
    ∧ (¬(pa ≤ pb ∧ pa ≤ pc) ∧ ¬pb ≤ pc → paethPredictor a b c = c)
    ∧ pa = ((b.toNat : Int) - c.toNat).natAbs ∧ pb = ((a.toNat : Int) - c.toNat).natAbs
    ∧ pc = ((a.toNat : Int) + b.toNat - 2 * c.toNat).natAbs
    ∧ -255 ≤ p ∧ p ≤ 510 ∧ pa ≤ 255 ∧ pb ≤ 255 ∧ pc ≤ 510
    ∧ (paethPredictor a b c = a ∨ paethPredictor a b c = b ∨ paethPredictor a b c = c)
    ∧ paethPredictor a a a = a

/-- What the spec derives from the Paeth predictor: with upper-left equal to left the result is above; on row 0 Paeth is
Sub; at the left edge of a later row Paeth is Up (44_defilter.md R208, R209; 95_test_vectors.md S2). -/
def Obligations.PaethAtTheEdges : Prop :=
  ∀ a b : Byte, paethPredictor a b a = b ∧ paethPredictor a 0 0 = a ∧ paethPredictor 0 b 0 = b

/-- Where the four bytes of a byte step come from (44_defilter.md R203): x at q + c of FBUF; left, above and upper-left
from OBUF at o + (c - 1) less BPP, less ROWBYTES, less both, each 0 where absent: left when c <= BPP, above in row 0,
upper-left when either is. -/
def Obligations.NeighbourFetch : Prop :=
  ∀ (s : State) (n : Neighbours),
    let c := s.dfCol.toNat
    let o := s.dfOpos.toNat
    let bpp := s.bpp.toNat
    fetchNeighbours s = .ok n ↔
      s.fbuf.read (s.dfFpos.toNat + c) = some n.x
      ∧ (if bpp < c then s.obuf.read (o + (c - 1) - bpp) = some n.a else n.a = 0)
      ∧ (if 0 < s.dfRow.toNat then s.obuf.read (o + (c - 1) - s.rowbytes.toNat) = some n.b else n.b = 0)
      ∧ (if 0 < s.dfRow.toNat ∧ bpp < c then s.obuf.read (o + (c - 1) - s.rowbytes.toNat - bpp) = some n.c
        else n.c = 0)

/-- A row start latches the filter type and goes to the first byte, or past the row where rows are empty; nothing else
changes (44_defilter.md R202, R211). For each of the five scanline instructions. -/
def Obligations.RowStartEntersTheRow : Prop :=
  ∀ (s : State) (ft : FilterType), s.dfCol = 0 →
    (s.rowbytes ≠ 0 → exec ft.instr s = .next { s with dfFtype := ft, dfCol := 1 })
    ∧ (s.rowbytes = 0 → exec ft.instr s = .next { s with
        dfFtype := ft, dfRow := s.dfRow + 1, dfFpos := s.dfFpos + 1, dfOpos := s.dfOpos, dfCol := 0 })

/-- The errors of a row start in their order, and the end of the image: data short, then the filter type; at
`DF.row = HEIGHT`, excess data under `CFG.EXCESS_REJECT`, else DONE with `O_LEN` (44_defilter.md R202, R211, R212). -/
def Obligations.RowStartErrorsAndFinish : Prop :=
  ∀ s : State, s.phase = .defilter → s.host = [] → s.dfCol = 0 →
    (s.dfRow ≠ s.height →
      (s.fLen.toNat < s.dfFpos.toNat + 1 + s.rowbytes.toNat →
        step s = .next (raise .scanlineDataShort 0 (s.dfRow.setWidth 64) s))
      ∧ ∀ b : Byte, s.dfFpos.toNat + 1 + s.rowbytes.toNat ≤ s.fLen.toNat → s.fbuf.read s.dfFpos.toNat = some b →
        4 < b.toNat → step s = .next (raise .invalidFilterType 0 (s.dfRow.setWidth 64) s))
    ∧ (s.dfRow = s.height →
      (s.dfFpos.toNat < s.fLen.toNat ∧ s.excessReject = true →
        step s = .next (raise .scanlineDataExcess 0 (s.height.setWidth 64) s))
      ∧ (¬(s.dfFpos.toNat < s.fLen.toNat ∧ s.excessReject = true) →
        step s = .next { s with oLen := s.dfOpos, phase := .done }))

/-- NONE: the predictor is 0 and the raw byte is the filtered byte (44_defilter.md R204, R210). That the step leaves p, pa,
pb, pc is log 10. -/
def Obligations.NoneCopiesTheByte : Prop :=
  ∀ (s : State) (n : Neighbours), s.dfCol ≠ 0 → fetchNeighbours s = .ok n →
    ∃ t, exec .rowNone s = .next t ∧ ByteStepResult s t n 0
      ∧ t.obuf.read s.rawAddr = some n.x
      ∧ t.dfP = s.dfP ∧ t.dfPa = s.dfPa ∧ t.dfPb = s.dfPb ∧ t.dfPc = s.dfPc

/-- SUB: the predictor is the left byte, so that the first `BPP` bytes of a row are their filtered bytes, whatever the row
above holds (44_defilter.md R205, R210). That the step leaves p, pa, pb, pc is log 10. -/
def Obligations.SubAddsTheLeftByte : Prop :=
  ∀ (s : State) (n : Neighbours), s.dfCol ≠ 0 → fetchNeighbours s = .ok n →
    ∃ t, exec .rowSub s = .next t ∧ ByteStepResult s t n n.a
      ∧ (s.dfCol.toNat ≤ s.bpp.toNat → t.obuf.read s.rawAddr = some n.x)
      ∧ t.dfP = s.dfP ∧ t.dfPa = s.dfPa ∧ t.dfPb = s.dfPb ∧ t.dfPc = s.dfPc

/-- UP: the predictor is the byte above, so that the bytes of row 0 are their filtered bytes, whatever `BPP` is
(44_defilter.md R206, R210). That the step leaves p, pa, pb, pc is log 10. -/
def Obligations.UpAddsTheByteAbove : Prop :=
  ∀ (s : State) (n : Neighbours), s.dfCol ≠ 0 → fetchNeighbours s = .ok n →
    ∃ t, exec .rowUp s = .next t ∧ ByteStepResult s t n n.b
      ∧ (s.dfRow = 0 → t.obuf.read s.rawAddr = some n.x)
      ∧ t.dfP = s.dfP ∧ t.dfPa = s.dfPa ∧ t.dfPb = s.dfPb ∧ t.dfPc = s.dfPc

/-- AVG: the predictor is the floor of half the exact sum of left and above (44_defilter.md R207, R210; 90_conflicts.md
C9). That the step leaves p, pa, pb, pc is log 10. -/
def Obligations.AvgAddsTheFlooredMean : Prop :=
  ∀ (s : State) (n : Neighbours), s.dfCol ≠ 0 → fetchNeighbours s = .ok n →
    ∃ t pr, exec .rowAvg s = .next t ∧ pr.toNat = (n.a.toNat + n.b.toNat) / 2 ∧ ByteStepResult s t n pr
      ∧ t.dfP = s.dfP ∧ t.dfPa = s.dfPa ∧ t.dfPb = s.dfPb ∧ t.dfPc = s.dfPc

/-- PAETH: the predictor is the Paeth predictor of left, above and upper-left; its intermediates are latched
(44_defilter.md R208, R210; 10_state.md R32); that they are latched by a completed step is log 10. -/
def Obligations.PaethAddsThePaethPredictor : Prop :=
  ∀ (s : State) (n : Neighbours), s.dfCol ≠ 0 → fetchNeighbours s = .ok n →
    ∃ t, exec .rowPaeth s = .next t ∧ ByteStepResult s t n (paethPredictor n.a n.b n.c)
      ∧ t.dfP = (n.a.toNat : Int) + n.b.toNat - n.c.toNat
      ∧ t.dfPa = ((t.dfP - n.a.toNat).natAbs : Int) ∧ t.dfPb = ((t.dfP - n.b.toNat).natAbs : Int)
      ∧ t.dfPc = ((t.dfP - n.c.toNat).natAbs : Int)

/-- The steps of one row, one row start and `ROWBYTES` byte steps, compute the row function on its filtered bytes and the
row above, zeros above row 0 (44_defilter.md R213); the rows already in OBUF are unchanged, and the position is the next
row's. -/
def Obligations.RowStepsComputeTheRowFunction : Prop :=
  ∀ (inflate : List Byte → InflateResult) (s : State) (ft : FilterType) (filt prev : List Byte),
    s.Inv → s.phase = .defilter → s.host = [] → s.dfCol = 0 → s.dfRow ≠ s.height →
    s.dfFpos.toNat + 1 + s.rowbytes.toNat ≤ s.fLen.toNat → s.fbuf.read s.dfFpos.toNat = some ft.byte →
    s.filteredRow = some filt → s.rowAbove = some prev →
    ∃ t, runWith inflate (1 + s.rowbytes.toNat) s = .next t
      ∧ t.obuf.readBytes s.dfOpos.toNat s.rowbytes.toNat = some (defilterRow ft filt prev s.bpp.toNat)
      ∧ (∀ a, a < s.dfOpos.toNat ∨ s.dfOpos.toNat + s.rowbytes.toNat ≤ a → t.obuf.read a = s.obuf.read a)
      ∧ t.dfRow.toNat = s.dfRow.toNat + 1 ∧ t.dfCol = 0
      ∧ t.dfFpos.toNat = s.dfFpos.toNat + 1 + s.rowbytes.toNat
      ∧ t.dfOpos.toNat = s.dfOpos.toNat + s.rowbytes.toNat
      ∧ t.phase = .defilter ∧ t.host = [] ∧ t.fbuf = s.fbuf ∧ t.bpp = s.bpp ∧ t.rowbytes = s.rowbytes
      ∧ t.height = s.height ∧ t.fLen = s.fLen

/-- A whole defiltering run: from the start of phase DEFILTER over a buffer that holds the image's rows, exactly
`HEIGHT * (1 + ROWBYTES) + 1` steps end in DONE, and OBUF holds the rows reconstructed one after the other (20_memory.md
R71, R72; 44_defilter.md R211, R213, R215). Bytes after the rows are ignored, the default `EXCESS_POLICY` (R212). -/
def Obligations.DefilterRunReconstructsTheImage : Prop :=
  ∀ (inflate : List Byte → InflateResult) (s : State) (rows : List (FilterType × List Byte)),
    s.Inv → s.phase = .defilter → s.host = [] → s.dfRow = 0 → s.dfCol = 0 → s.excessReject = false →
    s.height.toNat = rows.length → (∀ r ∈ rows, r.2.length = s.rowbytes.toNat) →
    s.height.toNat * (1 + s.rowbytes.toNat) ≤ s.fLen.toNat →
    s.fbuf.readBytes 0 (s.height.toNat * (1 + s.rowbytes.toNat)) = some (encodeRows rows) →
    ∃ t, runWith inflate (s.height.toNat * (1 + s.rowbytes.toNat) + 1) s = .next t
      ∧ t.phase = .done ∧ t.oLen.toNat = s.height.toNat * s.rowbytes.toNat
      ∧ t.samples = some (defilterRows s.bpp.toNat (List.replicate s.rowbytes.toNat 0) rows)

/-- Defiltering a correctly filtered row gives back the raw row, and filtering a defiltered row gives back the filtered
one, for every filter type, row above and distance (44_defilter.md R215). -/
def Obligations.DefilteringInvertsFiltering : Prop :=
  ∀ (ft : FilterType) (row prev : List Byte) (bpp : Nat),
    defilterRow ft (filterRow ft row prev bpp) prev bpp = row
    ∧ filterRow ft (defilterRow ft row prev bpp) prev bpp = row

/-- When a defiltering run finishes, `O_LEN` is `HEIGHT * ROWBYTES` and every byte below it is in OBUF (44_defilter.md
R211, R215; 20_memory.md R75). -/
def Obligations.FinishedRunHasItsWholeOutput : Prop :=
  ∀ s t : State, s.Inv → s.phase = .defilter → s.host = [] → step s = .next t → t.phase = .done →
    t.oLen.toNat = t.height.toNat * t.rowbytes.toNat ∧ ∃ bs, t.samples = some bs ∧ bs.length = t.oLen.toNat

/-- The defilterer uses no header field but `HEIGHT`: not `WIDTH`, `BIT_DEPTH`, `COLOR_MODEL` or `INTERLACE`
(44_defilter.md R200). -/
def Obligations.DefiltererIgnoresTheImageDescription : Prop :=
  ∀ (s : State) (w : Word32) (d : Byte) (cm : ColorModel) (il : Bool), s.phase = .defilter → s.host = [] →
    step { s with width := w, bitDepth := d, colorModel := cm, interlace := il }
      = mapNext (fun t => { t with width := w, bitDepth := d, colorModel := cm, interlace := il }) (step s)

/-! ## Errors -/

/-- What an error leaves (60_exceptions.md R230 to R232, R237, R238; 10_state.md R33, R34). After `raise` of any cause the
error registers read as the codes of R230 and R231, the tag and the position, and the phase is ERROR; every cause has its
codes. A step of a run that ends in ERROR is such a `raise` on the state before it, with the tag and position its phase
gives, and nothing else is written. -/
def Obligations.FailingStepWritesOnlyTheErrorRegisters : Prop :=
  (∀ (s : State) (c : Cause) (kind code tag : Word32) (pos : Word64), (c, kind, code) ∈ errorCodes →
    (raise c tag pos s).phase = .error
    ∧ readOffset 0x08 (raise c tag pos s) = kind ∧ readOffset 0x0C (raise c tag pos s) = code
    ∧ readOffset 0x10 (raise c tag pos s) = tag
    ∧ readOffset 0x18 (raise c tag pos s) ++ readOffset 0x14 (raise c tag pos s) = pos)
  ∧ (∀ c : Cause, ∃ kind code, (c, kind, code) ∈ errorCodes)
  ∧ ∀ s t : State, s.phase.busy = true → s.host = [] → step s = .next t → t.phase = .error →
    ∃ c tag pos, t = raise c tag pos s ∧ c.kind ≠ .ioError ∧ c.kind ≠ .noError
      ∧ (s.phase ≠ .chunks → tag = 0)
      ∧ (s.phase = .sig ∨ s.phase = .inflate → pos = 0)
      ∧ (s.phase = .chunks ∨ s.phase = .final → pos = s.feCursor)
      ∧ (s.phase = .defilter → pos = s.dfRow.setWidth 64)

/-- Phase ERROR is left only by CLEAR or hard reset, and then for IDLE with no error recorded (60_exceptions.md R239,
R240; 70_reset_and_hazards.md R260, R261). -/
def Obligations.OnlyClearOrResetLeavesError : Prop :=
  ∀ (inflate : List Byte → InflateResult) (s t : State), s.phase = .error → stepWith inflate s = .next t →
    t.phase ≠ .error →
    t.phase = .idle ∧ t.errKind = .noError ∧ t.errCause = 0 ∧ t.errTag = 0 ∧ t.errPos = 0
    ∧ ∃ m ms, s.host = m :: ms ∧ (m = .hardReset ∨ ∃ v : Word32, m = .writeReg 0 v ∧ v.getLsbD 2 = true)

/-! ## Host port -/

/-- CLEAR in DONE or ERROR, with or without a command beside it, returns to IDLE and clears the latch and the error
registers; nothing else changes (70_reset_and_hazards.md R261; 10_state.md R35 b, c). -/
def Obligations.ClearReturnsToIdle : Prop :=
  ∀ (s : State) (v : Word32) (ms : List HostMove), s.phase = .done ∨ s.phase = .error →
    s.host = .writeReg 0x00 v :: ms → v.getLsbD 2 = true →
    step s = .next { s with
      phase := .idle, cmdLatch := .noCommand, errKind := .noError, errCause := 0, errTag := 0, errPos := 0, host := ms }

/-- A register write outside IDLE changes nothing, except CLEAR in DONE or ERROR (10_state.md R35 a, b). For a read-only
register and for an offset with no register that is log 11, read from "ignore writes" of R34. -/
def Obligations.RegisterWritesOutsideIdleAreIgnored : Prop :=
  ∀ (s : State) (off : Nat) (v : Word32) (ms : List HostMove), s.phase ≠ .idle → s.host = .writeReg off v :: ms →
    s.phase.busy = true ∨ off ≠ 0 ∨ v.getLsbD 2 = false → step s = .next { s with host := ms }

/-- Commands DECODE and PARSE in IDLE initialise the run and go to the signature check (40_framing.md R120;
70_reset_and_hazards.md R262), whatever bits 31:3 of the word, which are unlisted (10_state.md R34). `IN_LEN` is below
2^63 (00_scope.md R5; 93_implementation_defined.md U11). What the initialisation does not list stays as it is, and
the entries of PAL and of `TRNS_ALPHA` go: log 23 (DEDUCED). -/
def Obligations.DecodeAndParseStartARun : Prop :=
  ∀ (s : State) (ms : List HostMove) (v : Word32) (cmd : Command), s.phase = .idle → s.inLen.toNat < 2 ^ 63 →
    (v.extractLsb' 0 2, cmd) ∈ [(1#2, Command.decode), (3#2, Command.parse)] → v.getLsbD 2 = false →
    s.host = .writeReg 0x00 v :: ms →
    step s = .next { s with
      phase := .sig, cmdLatch := cmd, feCursor := 0
      hdrSeen := false, palSeen := false, bkgdSeen := false, dataSeen := false, trnsSeen := false, endSeen := false
      width := 0, height := 0, bitDepth := 0, colorModel := .greyscale, interlace := false
      pal := [], trnsKind := .absent, trnsAlpha := [], trnsGrey := 0, trnsR := 0, trnsG := 0, trnsB := 0
      bkgdKind := .absent, bkgdIndex := 0, bkgdGrey := 0, bkgdR := 0, bkgdG := 0, bkgdB := 0
      zlen := 0, bpp := 0, rowbytes := 0, fLen := 0
      dfRow := 0, dfCol := 0, dfFpos := 0, dfOpos := 0, dfFtype := .noFilter
      errKind := .noError, errCause := 0, errTag := 0, errPos := 0, host := ms }

/-- Command DEFILTER in IDLE initialises the run but keeps the host's parameters; illegal ones are FormatError
InvalidDefilterParameter at once (44_defilter.md R201; 70_reset_and_hazards.md R262), whatever bits 31:3 of the word. That
the initialisation stands beside the error is log 9; that `O_LEN`, the four spaces and the dead latches, which the
initialisation does not list, stay as they are, and that the entries of PAL and of `TRNS_ALPHA` go, is log 23 (DEDUCED). -/
def Obligations.DefilterCommandStartsARun : Prop :=
  ∀ (s : State) (ms : List HostMove) (v : Word32), s.phase = .idle →
    v.extractLsb' 0 2 = 2 → v.getLsbD 2 = false → s.host = .writeReg 0x00 v :: ms →
    let legal := 1 ≤ s.bpp.toNat ∧ s.bpp.toNat ≤ 8 ∧ s.rowbytes.toNat < 2 ^ 63 ∧ s.fLen.toNat < 2 ^ 63
    let init := { s with
      cmdLatch := Command.defilter, feCursor := 0
      hdrSeen := false, palSeen := false, bkgdSeen := false, dataSeen := false, trnsSeen := false, endSeen := false
      width := 0, bitDepth := 0, colorModel := .greyscale, interlace := false
      pal := [], trnsKind := .absent, trnsAlpha := [], trnsGrey := 0, trnsR := 0, trnsG := 0, trnsB := 0
      bkgdKind := .absent, bkgdIndex := 0, bkgdGrey := 0, bkgdR := 0, bkgdG := 0, bkgdB := 0
      zlen := 0, dfRow := 0, dfCol := 0, dfFpos := 0, dfOpos := 0, dfFtype := .noFilter
      errKind := .noError, errCause := 0, errTag := 0, errPos := 0, host := ms }
    (legal → step s = .next { init with phase := .defilter })
    ∧ (¬legal → step s = .next (raise .invalidDefilterParameter 0 0 init))

/-- What the register map shows (10_state.md R34). The packed words `STATUS`, `FMT`, `BKGD0`, `BKGD1`, `TRNS0`, `TRNS1` show
their fields at their places and zeros elsewhere, with the numbers of R21, R24, R27, R28 for the values of `PHASE`,
`CMD_LATCH`, `COLOR_MODEL`, `TRNS_KIND`, `BKGD_KIND` and of 60_exceptions.md R230 for `ERR_KIND`; which of two values bits 31:16 of `BKGD0` and `TRNS0` show is log 12.
Every other register but `CTRL` shows its quantity, a 64-bit one low word first, and `CTRL` reads 0. A palette entry
shows its colour, an entry of the alpha list its byte; of a stored alpha list exactly the entries `i < PAL_LEN` have
one. -/
def Obligations.PackedWordsShowTheirFields : Prop :=
  ∀ s : State,
    (let w := readOffset 0x04 s
     w.extractLsb' 0 3 = s.phase.code ∧ w.getLsbD 3 = s.phase.busy ∧ w.getLsbD 4 = decide (s.phase = .done)
     ∧ w.getLsbD 5 = decide (s.phase = .error) ∧ w.getLsbD 6 = s.hdrSeen ∧ w.getLsbD 7 = s.palSeen
     ∧ w.getLsbD 8 = s.bkgdSeen ∧ w.getLsbD 9 = s.dataSeen ∧ w.getLsbD 10 = s.trnsSeen ∧ w.getLsbD 11 = s.endSeen
     ∧ w.extractLsb' 12 2 = s.cmdLatch.code ∧ w.extractLsb' 14 18 = 0)
    ∧ (let w := readOffset 0x38 s
       w.extractLsb' 0 8 = s.bitDepth ∧ w.extractLsb' 8 3 = s.colorModel.code ∧ w.getLsbD 11 = s.interlace
       ∧ w.extractLsb' 12 20 = 0)
    ∧ (let w := readOffset 0x68 s
       w.extractLsb' 0 2 = s.bkgdKind.code ∧ w.extractLsb' 2 6 = 0 ∧ w.extractLsb' 8 8 = s.bkgdIndex
       ∧ (s.bkgdKind ≠ .rgb → w.extractLsb' 16 16 = s.bkgdGrey) ∧ (s.bkgdKind = .rgb → w.extractLsb' 16 16 = s.bkgdR))
    ∧ (let w := readOffset 0x6C s
       w.extractLsb' 0 16 = s.bkgdG ∧ w.extractLsb' 16 16 = s.bkgdB)
    ∧ (let w := readOffset 0x70 s
       w.extractLsb' 0 2 = s.trnsKind.code ∧ w.extractLsb' 2 14 = 0
       ∧ (s.trnsKind ≠ .rgbKey → w.extractLsb' 16 16 = s.trnsGrey)
       ∧ (s.trnsKind = .rgbKey → w.extractLsb' 16 16 = s.trnsR))
    ∧ (let w := readOffset 0x74 s
       w.extractLsb' 0 16 = s.trnsG ∧ w.extractLsb' 16 16 = s.trnsB)
    ∧ (∀ (i : Nat) (e : PalEntry), s.pal[i]? = some e → ∃ w, readPal i s = some w
       ∧ w.extractLsb' 16 8 = e.r ∧ w.extractLsb' 8 8 = e.g ∧ w.extractLsb' 0 8 = e.b)
    ∧ (∀ (i : Nat) (a : Byte), s.trnsAlpha[i]? = some a → readTrnsAlpha i s = some a)
    ∧ (s.Inv → s.trnsKind = .alphaList → ∀ i, (readTrnsAlpha i s).isSome = true ↔ i < s.pal.length)
    ∧ (s.phase, (readOffset 0x04 s).extractLsb' 0 3) ∈ [(Phase.idle, 0#3), (Phase.sig, 1#3), (Phase.chunks, 2#3),
      (Phase.final, 3#3), (Phase.inflate, 4#3), (Phase.defilter, 5#3), (Phase.done, 6#3), (Phase.error, 7#3)]
    ∧ ((readOffset 0x04 s).getLsbD 3 = true ↔
      1 ≤ ((readOffset 0x04 s).extractLsb' 0 3).toNat ∧ ((readOffset 0x04 s).extractLsb' 0 3).toNat ≤ 5)
    ∧ (s.cmdLatch, (readOffset 0x04 s).extractLsb' 12 2) ∈ [(Command.noCommand, 0#2), (Command.decode, 1#2),
      (Command.defilter, 2#2), (Command.parse, 3#2)]
    ∧ (s.colorModel, (readOffset 0x38 s).extractLsb' 8 3) ∈ [(ColorModel.greyscale, 0#3), (ColorModel.rgb, 2#3),
      (ColorModel.indexed, 3#3), (ColorModel.greyAlpha, 4#3), (ColorModel.rgbAlpha, 6#3)]
    ∧ (s.bkgdKind, (readOffset 0x68 s).extractLsb' 0 2) ∈ [(BkgdKind.absent, 0#2), (BkgdKind.paletteIndex, 1#2),
      (BkgdKind.grey, 2#2), (BkgdKind.rgb, 3#2)]
    ∧ (s.trnsKind, (readOffset 0x70 s).extractLsb' 0 2) ∈ [(TrnsKind.absent, 0#2), (TrnsKind.alphaList, 1#2),
      (TrnsKind.greyKey, 2#2), (TrnsKind.rgbKey, 3#2)]
    ∧ (s.errKind, readOffset 0x08 s) ∈ [(ErrKind.noError, 0#32), (ErrKind.signatureError, 1#32),
      (ErrKind.formatError, 2#32), (ErrKind.decompressionError, 3#32), (ErrKind.ioError, 4#32)]
    ∧ readOffset 0x00 s = 0
    ∧ (readOffset 0x08 s).toNat = s.errKind.code.toNat ∧ (readOffset 0x0C s).toNat = s.errCause.toNat
    ∧ readOffset 0x10 s = s.errTag ∧ readOffset 0x18 s ++ readOffset 0x14 s = s.errPos
    ∧ (readOffset 0x1C s).toNat = s.excessReject.toNat
    ∧ readOffset 0x24 s ++ readOffset 0x20 s = s.inLen ∧ readOffset 0x2C s ++ readOffset 0x28 s = s.fLen
    ∧ readOffset 0x30 s = s.width ∧ readOffset 0x34 s = s.height ∧ (readOffset 0x3C s).toNat = s.bpp.toNat
    ∧ readOffset 0x44 s ++ readOffset 0x40 s = s.rowbytes ∧ readOffset 0x4C s ++ readOffset 0x48 s = s.feCursor
    ∧ readOffset 0x50 s = s.dfRow ∧ (s.pal.length < 2 ^ 32 → (readOffset 0x54 s).toNat = s.pal.length)
    ∧ readOffset 0x5C s ++ readOffset 0x58 s = s.zlen ∧ readOffset 0x64 s ++ readOffset 0x60 s = s.oLen

/-- In IDLE a write to a host-writable register reads back in the bits that exist, every other register reads as before, and
nothing but the host-writable registers can have changed: no space, no side table, no position (10_state.md R34, R35). Any other write in IDLE but a command changes nothing: to a read-only register, at an
offset with no register, of `CTRL` with CLEAR = 1 or CMD = 0 (log 11). -/
def Obligations.WrittenRegisterReadsBack : Prop :=
  (∀ (s : State) (r : Reg) (m v : Word32) (ms : List HostMove), s.phase = .idle → rwMask r = some m →
    s.host = .writeReg r.offset v :: ms →
    ∃ t, step s = .next t ∧ t.host = ms ∧ readOffset r.offset t = v &&& m
      ∧ (∀ r' : Reg, r' ≠ r → readOffset r'.offset t = readOffset r'.offset s)
      ∧ t = { s with
          excessReject := t.excessReject, inLen := t.inLen, fLen := t.fLen, height := t.height, bpp := t.bpp
          rowbytes := t.rowbytes, host := ms })
  ∧ ∀ (s : State) (off : Nat) (v : Word32) (ms : List HostMove), s.phase = .idle → s.host = .writeReg off v :: ms →
    off ∉ writableOffsets ∨ (off = 0x00 ∧ (v.getLsbD 2 = true ∨ v.extractLsb' 0 2 = 0)) →
    step s = .next { s with host := ms }

/-- Hard reset, from any state: the state after reset, in which every register of the map reads 0, at every offset
(10_state.md R34, R39; 70_reset_and_hazards.md R260). The values of the dead latches in it are the model's choice (log 2);
that an offset with no register, a misaligned one among them, reads 0 is log 11 (DEDUCED); the host's later moves still
come (logs 4, 13). -/
def Obligations.HardResetFromAnyState : Prop :=
  ∀ (s : State) (ms : List HostMove), s.host = .hardReset :: ms →
    step s = .next { State.reset with host := ms }
    ∧ ∀ off : Nat, readOffset off { State.reset with host := ms } = 0

/-- The host places a byte in IN or FBUF whenever no run is in progress; no other byte and no other state changes
(10_state.md R20; 70_reset_and_hazards.md R263, R264). While a run is in progress the model refuses the move (R267;
93_implementation_defined.md U13; logs 7, 22). -/
def Obligations.HostPlacesBytesBetweenRuns : Prop :=
  ∀ (s : State) (off : Word64) (b : Byte) (ms : List HostMove),
    (s.host = .writeIn off b :: ms →
      (s.phase.busy = false → ∃ t, step s = .next t ∧ t.inMem.read off.toNat = some b
        ∧ (∀ a, a ≠ off.toNat → t.inMem.read a = s.inMem.read a) ∧ t = { s with inMem := t.inMem, host := ms })
      ∧ (s.phase.busy = true → step s = .refused .hostSpaceWriteWhileBusy))
    ∧ (s.host = .writeFbuf off b :: ms →
      (s.phase.busy = false → ∃ t, step s = .next t ∧ t.fbuf.read off.toNat = some b
        ∧ (∀ a, a ≠ off.toNat → t.fbuf.read a = s.fbuf.read a) ∧ t = { s with fbuf := t.fbuf, host := ms })
      ∧ (s.phase.busy = true → step s = .refused .hostSpaceWriteWhileBusy))

/-- Where the model stops, by name: a read of a byte that nothing has written is a fault (log 1), in the signature, a
frame header, a payload, a filter-type byte, a byte step's operands, the decompressor's input; so is the final pass
without a DECODE or PARSE command (log 8); an `IN_LEN` or a decompressor's result of 2^63 bytes or more is refused
(93_implementation_defined.md U11, U12; log 7). These stops are the model's choice. -/
def Obligations.StopsByName : Prop :=
  ∀ (inflate : List Byte → InflateResult) (s : State),
    (8 ≤ s.inLen.toNat → s.inMem.readBytes 0 8 = none → exec .sig s = .fault (.unwrittenByte .input))
    ∧ (s.phase = .chunks → s.host = [] → s.feCursor.toNat + 8 ≤ s.inLen.toNat →
      s.inMem.readBytes s.feCursor.toNat 8 = none → stepWith inflate s = .fault (.unwrittenByte .input))
    ∧ (∀ hdr : List Byte, s.phase = .chunks → s.host = [] → s.feCursor.toNat + 8 ≤ s.inLen.toNat →
      s.inMem.readBytes s.feCursor.toNat 8 = some hdr →
      s.feCursor.toNat + 8 + (chunkLength hdr).toNat ≤ s.inLen.toNat →
      s.inMem.readBytes (s.feCursor.toNat + 8) (chunkLength hdr).toNat = none →
      stepWith inflate s = .fault (.unwrittenByte .input))
    ∧ (s.phase = .defilter → s.host = [] → s.dfCol = 0 → s.dfRow ≠ s.height →
      s.dfFpos.toNat + 1 + s.rowbytes.toNat ≤ s.fLen.toNat → s.fbuf.read s.dfFpos.toNat = none →
      stepWith inflate s = .fault (.unwrittenByte .fbuf))
    ∧ (∀ (ft : FilterType) (sp : Space), s.dfCol ≠ 0 → fetchNeighbours s = .error sp →
      exec ft.instr s = .fault (.unwrittenByte sp))
    ∧ (s.phase = .inflate → s.host = [] → s.zbuf.readBytes 0 s.zlen.toNat = none →
      stepWith inflate s = .fault (.unwrittenByte .zbuf))
    ∧ (s.phase = .final → s.host = [] → s.legalImage → s.cmdLatch ≠ .decode → s.cmdLatch ≠ .parse →
      stepWith inflate s = .fault .noTransition)
    ∧ (∀ (v : Word32) (ms : List HostMove), s.phase = .idle → 2 ^ 63 ≤ s.inLen.toNat →
      v.extractLsb' 0 2 = 1 ∨ v.extractLsb' 0 2 = 3 → v.getLsbD 2 = false → s.host = .writeReg 0x00 v :: ms → stepWith inflate s = .refused .inputTooLong)
    ∧ (∀ z f : List Byte, s.phase = .inflate → s.host = [] → s.zbuf.readBytes 0 s.zlen.toNat = some z →
      inflate z = .ok f → 2 ^ 63 ≤ f.length → stepWith inflate s = .refused .inflateTooLong)

/-- The result can be read exactly when the run is DONE: after DECODE the image description and `HEIGHT * ROWBYTES` bytes of
OBUF, after PARSE the description, `BPP`, `ROWBYTES` and `ZLEN` bytes of ZBUF, after DEFILTER the bytes of OBUF alone;
palette, transparency and background are present exactly when seen (10_state.md R37; 42_assembler.md R175). That nothing
can be read otherwise is log 14. The description holds the header registers, and the palette, transparency and background
that the stores hold by `PAL`, `TRNS_KIND` and `BKGD_KIND` (10_state.md R27, R28). After CLEAR the host still reads all of
it, register by register and byte by byte (70_reset_and_hazards.md R261). -/
def Obligations.ResultIsReadableExactlyWhenDone : Prop :=
  ∀ s : State, s.Inv →
    (s.phase ≠ .done → s.result = none)
    ∧ (s.phase = .done → ∃ bs : List Byte,
      (s.cmdLatch = .decode ∧ s.result = some (.decoded s.imageInfo bs)
        ∨ s.cmdLatch = .defilter ∧ s.result = some (.defiltered bs)
        ∨ s.cmdLatch = .parse ∧ s.result = some (.parsed s.imageInfo s.bpp s.rowbytes bs))
      ∧ (s.cmdLatch ≠ .parse → bs.length = s.height.toNat * s.rowbytes.toNat
        ∧ ∀ k, k < bs.length → s.obuf.read k = bs[k]?)
      ∧ (s.cmdLatch = .parse → bs.length = s.zlen.toNat ∧ ∀ k, k < bs.length → s.zbuf.read k = bs[k]?))
    ∧ s.imageInfo.palette.isSome = s.palSeen
    ∧ s.imageInfo.transparency.isSome = s.trnsSeen
    ∧ s.imageInfo.background.isSome = s.bkgdSeen
    ∧ s.imageInfo.width = s.width ∧ s.imageInfo.height = s.height ∧ s.imageInfo.bitDepth = s.bitDepth
    ∧ s.imageInfo.colorModel = s.colorModel ∧ s.imageInfo.interlace = s.interlace
    ∧ (s.palSeen = true → s.imageInfo.palette = some s.pal)
    ∧ (s.trnsKind = .alphaList → s.imageInfo.transparency = some (.alphaList s.trnsAlpha))
    ∧ (s.trnsKind = .greyKey → s.imageInfo.transparency = some (.greyKey s.trnsGrey))
    ∧ (s.trnsKind = .rgbKey → s.imageInfo.transparency = some (.rgbKey s.trnsR s.trnsG s.trnsB))
    ∧ (s.bkgdKind = .paletteIndex → s.imageInfo.background = some (.paletteIndex s.bkgdIndex))
    ∧ (s.bkgdKind = .grey → s.imageInfo.background = some (.grey s.bkgdGrey))
    ∧ (s.bkgdKind = .rgb → s.imageInfo.background = some (.rgb s.bkgdR s.bkgdG s.bkgdB))
    ∧ ∀ (v : Word32) (ms : List HostMove), s.phase = .done → s.host = .writeReg 0x00 v :: ms → v.getLsbD 2 = true →
      ∃ t, step s = .next t ∧ t.phase = .idle ∧ t.resultOf s.cmdLatch = s.result
        ∧ (∀ r : Reg, r ≠ .status → readOffset r.offset t = readOffset r.offset s)
        ∧ (∀ i, readPal i t = readPal i s ∧ readTrnsAlpha i t = readTrnsAlpha i s
          ∧ readZbuf i t = readZbuf i s ∧ readObuf i t = readObuf i s)

/-! ## The machine as a whole -/

/-- The phase moves only as the table of 10_state.md R21 says, but for hard reset, which goes to IDLE from anywhere
(60_exceptions.md R239). In IDLE, DONE and ERROR the block by itself changes nothing at all: no phase, no result, no error
register (10_state.md R33, R37; 60_exceptions.md R240; 70_reset_and_hazards.md R260); that such a step is a next state is
log 6, DEDUCED. -/
def Obligations.PhaseMovesAsTheTableSays : Prop :=
  (∀ (inflate : List Byte → InflateResult) (s t : State), stepWith inflate s = .next t →
    phaseMove s.phase t.phase = true ∨ (t.phase = .idle ∧ ∃ ms, s.host = .hardReset :: ms))
  ∧ ∀ (inflate : List Byte → InflateResult) (s : State), s.phase.busy = false → s.host = [] →
    stepWith inflate s = .next s

/-- No step of a run clears a flag (10_state.md R25). -/
def Obligations.FlagsAreNeverClearedDuringARun : Prop :=
  ∀ s t : State, s.phase.busy = true → s.host = [] → step s = .next t →
    (s.hdrSeen = true → t.hdrSeen = true) ∧ (s.palSeen = true → t.palSeen = true)
    ∧ (s.bkgdSeen = true → t.bkgdSeen = true) ∧ (s.dataSeen = true → t.dataSeen = true)
    ∧ (s.trnsSeen = true → t.trnsSeen = true) ∧ (s.endSeen = true → t.endSeen = true)

/-- Which step may change which space: the block never writes IN; FBUF changes only in the Inflate call, ZBUF only in a
chunk step, OBUF only in phase DEFILTER; `IN_LEN` and `CFG` are the host's (20_memory.md R60, R61, R62, R63, R77;
70_reset_and_hazards.md R262). -/
def Obligations.SpacesHaveOneWriterEach : Prop :=
  ∀ s t : State, s.host = [] → step s = .next t →
    t.inMem = s.inMem ∧ t.inLen = s.inLen ∧ t.excessReject = s.excessReject ∧ t.host = []
    ∧ (s.phase ≠ .inflate → t.fbuf = s.fbuf ∧ t.fLen = s.fLen)
    ∧ (s.phase ≠ .chunks → t.zbuf = s.zbuf ∧ t.zlen = s.zlen)
    ∧ (s.phase ≠ .defilter → t.obuf = s.obuf ∧ t.oLen = s.oLen)

/-- The dead latches influence nothing: two states that differ in them alone step to results that differ in them alone
(10_state.md R23, R32; 93_implementation_defined.md U2). -/
def Obligations.DeadLatchesInfluenceNothing : Prop :=
  ∀ (inflate : List Byte → InflateResult) (s s' : State), s.forgetLatches = s'.forgetLatches →
    mapNext State.forgetLatches (stepWith inflate s) = mapNext State.forgetLatches (stepWith inflate s')

/-- The invariant holds after hard reset. -/
def Obligations.InvariantHoldsAtReset : Prop := State.reset.Inv

/-- Every step keeps the invariant, for every decompressor and every move of the host. -/
def Obligations.EveryStepKeepsTheInvariant : Prop :=
  ∀ (inflate : List Byte → InflateResult) (s t : State), s.Inv → stepWith inflate s = .next t → t.Inv

/-- From a state of the invariant, where the host has put the bytes it promised, no step of the block faults: no byte is
read that nothing has written (20_memory.md R68; 44_defilter.md R203, R214); and the promise is kept on. The one refusal is
a decompressor's result of 2^63 bytes or more. -/
def Obligations.NoBlockStepFaults : Prop :=
  ∀ (inflate : List Byte → InflateResult) (s : State), s.Inv → s.inputsPresent → s.host = [] →
    (∃ t, stepWith inflate s = .next t ∧ (s.phase.busy = true → t.inputsPresent))
    ∨ (s.phase = .inflate ∧ stepWith inflate s = .refused .inflateTooLong)

/-- Every run ends: from a state of the invariant with the promised bytes there, some number of steps leads out of the
busy phases. The chunk walk ends within one step for every 12 bytes still ahead and one more, the failing step (the
spec's bound counts the steps that complete), phase DEFILTER within `F_LEN + 1` steps (70_reset_and_hazards.md R270;
40_framing.md R129). The only other end is a decompressor's result of
2^63 bytes or more. -/
def Obligations.EveryRunEnds : Prop :=
  ∀ (inflate : List Byte → InflateResult) (s : State), s.Inv → s.inputsPresent → s.host = [] →
    (∃ n, (s.phase = .defilter → n ≤ s.fLen.toNat + 1)
      ∧ ((∃ t, runWith inflate n s = .next t ∧ t.phase.busy = false)
        ∨ runWith inflate n s = .refused .inflateTooLong))
    ∧ (s.phase = .chunks → ∃ n t, n ≤ (s.inLen.toNat - s.feCursor.toNat) / 12 + 1
      ∧ runWith inflate n s = .next t ∧ t.phase ≠ .chunks)
end

