-- ==== Sys2Proof/Laws/Bytes.lean ====
section
/-! SUPPORT. Laws of byte order, of the chunk frame and of the tag map: a field read back from its bytes, the length and
the tag of an encoded frame, the tags that select an instruction. -/

namespace Sys2Proof

/-- `be32` is the number 00_scope.md R6 says. -/
theorem be32_toNat (b0 b1 b2 b3 : Byte) :
    (be32 b0 b1 b2 b3).toNat = b0.toNat * 2 ^ 24 + b1.toNat * 2 ^ 16 + b2.toNat * 2 ^ 8 + b3.toNat := by
  simp only [be32, BitVec.toNat_append]
  rw [← Nat.shiftLeft_add_eq_or_of_lt b1.isLt, ← Nat.shiftLeft_add_eq_or_of_lt b2.isLt,
    ← Nat.shiftLeft_add_eq_or_of_lt b3.isLt]
  simp only [Nat.shiftLeft_eq]
  omega

/-- `be16` is the number 00_scope.md R6 says. -/
theorem be16_toNat (b0 b1 : Byte) : (be16 b0 b1).toNat = b0.toNat * 2 ^ 8 + b1.toNat := by
  simp only [be16, BitVec.toNat_append]
  rw [← Nat.shiftLeft_add_eq_or_of_lt b1.isLt]
  simp only [Nat.shiftLeft_eq]

/-- A 32-bit field read back from its four bytes. -/
@[simp] theorem be32_of_parts (w : Word32) :
    be32 (w.extractLsb' 24 8) (w.extractLsb' 16 8) (w.extractLsb' 8 8) (w.extractLsb' 0 8) = w := by
  apply BitVec.eq_of_getLsbD_eq
  intro i hi
  simp only [be32, BitVec.getLsbD_append, BitVec.getLsbD_extractLsb']
  interval_cases i <;> simp

/-- The four bytes of an assembled field are the bytes it was assembled from. -/
theorem bytes32_be32 (b0 b1 b2 b3 : Byte) : bytes32 (be32 b0 b1 b2 b3) = [b0, b1, b2, b3] := by
  have h : ∀ (k : Nat) (b : Byte), (∀ i, i < 8 → (be32 b0 b1 b2 b3).getLsbD (k + i) = b.getLsbD i) →
      (be32 b0 b1 b2 b3).extractLsb' k 8 = b := fun k b hb => by
    apply BitVec.eq_of_getLsbD_eq
    intro i hi
    rw [BitVec.getLsbD_extractLsb']
    simp [hi, hb i hi]
  simp only [bytes32]
  rw [h 24 b0, h 16 b1, h 8 b2, h 0 b3]
  all_goals
    intro i hi
    simp only [be32, BitVec.getLsbD_append]
    interval_cases i <;> simp

@[simp] theorem bytes32_length (w : Word32) : (bytes32 w).length = 4 := rfl

/-- The length field of an encoded frame. -/
@[simp] theorem chunkLength_frame (l t : Word32) (rest : List Byte) :
    chunkLength (bytes32 l ++ bytes32 t ++ rest) = l := be32_of_parts l

/-- The tag of an encoded frame. -/
@[simp] theorem chunkTag_frame (l t : Word32) (rest : List Byte) : chunkTag (bytes32 l ++ bytes32 t ++ rest) = t :=
  be32_of_parts t

/-- Bytes that hold a frame header begin with the bytes of its length and tag. -/
theorem frame_header {bs : List Byte} (h : 8 ≤ bs.length) :
    bs = bytes32 (chunkLength bs) ++ bytes32 (chunkTag bs) ++ bs.drop 8 := by
  match bs, h with
  | b0 :: b1 :: b2 :: b3 :: b4 :: b5 :: b6 :: b7 :: rest, _ =>
    show b0 :: b1 :: b2 :: b3 :: b4 :: b5 :: b6 :: b7 :: rest
      = bytes32 (be32 b0 b1 b2 b3) ++ bytes32 (be32 b4 b5 b6 b7) ++ rest
    rw [bytes32_be32, bytes32_be32]
    rfl

/-- Every row of the tag map: its instruction is a chunk, with the row's tag and the payload given. -/
theorem tagTable_rows {ztxt : Word32} {r : Word32 × (List Byte → Instr)} (h : r ∈ tagTable ztxt) (p : List Byte) :
    (r.2 p).format = .chunk ∧ (r.2 p).tag32 ztxt = r.1 ∧ (r.2 p).payload = p := by
  simp only [tagTable, List.mem_append, List.mem_cons, List.not_mem_nil, or_false] at h
  rcases h with (((h | h | h | h) | (h | h)) | (h | h | h | h)) | (h | h | h | h) <;> subst h <;> exact ⟨rfl, rfl, rfl⟩

/-- The tag map's tags: the 13 fixed ones and the parameter. -/
theorem tagTable_tags (ztxt : Word32) : (tagTable ztxt).map (·.1) = fixedTags ++ [ztxt] := rfl

/-- What a tag selects: a chunk instruction with that tag and payload. -/
theorem instrOfTag_some {ztxt tag : Word32} {p : List Byte} {i : Instr} (h : instrOfTag ztxt tag p = some i) :
    i.format = .chunk ∧ i.tag32 ztxt = tag ∧ i.payload = p := by
  unfold instrOfTag at h
  split at h
  · next r hr =>
    cases h
    obtain ⟨hf, ht, hp⟩ := tagTable_rows (List.mem_of_find?_eq_some hr) p
    exact ⟨hf, ht.trans (by simpa using List.find?_some hr), hp⟩
  · cases h

/-- Exactly the 14 tags select an instruction. -/
theorem instrOfTag_none {ztxt tag : Word32} {p : List Byte} :
    instrOfTag ztxt tag p = none ↔ tag ∉ fixedTags ∧ tag ≠ ztxt := by
  have key : instrOfTag ztxt tag p = none ↔ tag ∉ (tagTable ztxt).map (·.1) := by
    unfold instrOfTag
    split
    · next r hr =>
      simp only [reduceCtorEq, false_iff, not_not, List.mem_map]
      exact ⟨r, List.mem_of_find?_eq_some hr, by simpa using List.find?_some hr⟩
    · next hn =>
      simp only [true_iff, List.mem_map, not_exists, not_and]
      intro r hr he
      simpa [he] using List.find?_eq_none.mp hn r hr
  rw [key, tagTable_tags]
  simp [not_or]

/-- The tag of an instruction selects it, if `ZTXT_TAG` is none of the other tags. -/
theorem instrOfTag_tag32 {ztxt : Word32} (h : ztxt ∉ fixedTags) (i : Instr) (hi : i.format = .chunk) :
    instrOfTag ztxt (i.tag32 ztxt) i.payload = some i := by
  cases i
  case ztxt p =>
    have hf : (tagTable ztxt).find? (fun r => r.1 = ztxt) = some (ztxt, Instr.ztxt) := by
      have : tagTable ztxt = (tagTable ztxt).take 13 ++ [(ztxt, Instr.ztxt)] := rfl
      rw [this, List.find?_append, List.find?_eq_none.mpr, Option.none_or]
      · simp
      · intro r hr he
        refine h ?_
        rw [show fixedTags = ((tagTable ztxt).take 13).map (·.1) from rfl, List.mem_map]
        exact ⟨r, hr, by simpa using he⟩
    show (match (tagTable ztxt).find? (fun r => r.1 = ztxt) with
      | some r => some (r.2 p)
      | none => none) = _
    rw [hf]
  all_goals first | rfl | exact absurd hi (by decide)

/-- What a filter-type byte selects. -/
theorem instrOfFilterByte_some {b : Byte} {i : Instr} (h : instrOfFilterByte b = some i) :
    i.format = .scanline ∧ i.filterByte = b := by
  unfold instrOfFilterByte at h
  repeat' split at h
  all_goals first | (cases h; done) | (cases h; subst_vars; exact ⟨rfl, rfl⟩)

theorem instrOfFilterByte_none {b : Byte} : instrOfFilterByte b = none ↔ 4 < b.toNat := by
  revert b; decide

namespace Machine

@[simp] theorem instrOfFilterByte_byte (ft : FilterType) : instrOfFilterByte ft.byte = some ft.instr := by
  cases ft <;> rfl

end Machine

/-! ## The decoder -/

/-- When a chunk decodes: the frame header and the payload are there, and the tag is one of the 14. -/
theorem decodeChunk_ok {ztxt : Word32} {bs : List Byte} {i : Instr} :
    decodeChunk ztxt bs = .ok i ↔ 8 + (chunkLength bs).toNat ≤ bs.length
      ∧ instrOfTag ztxt (chunkTag bs) ((bs.drop 8).take (chunkLength bs).toNat) = some i := by
  unfold decodeChunk
  split
  · simp; omega
  · split
    · next h1 h2 => simp only [List.length_drop] at h2; simp; omega
    · next h1 h2 =>
      simp only [List.length_drop] at h2
      have : 8 + (chunkLength bs).toNat ≤ bs.length := by omega
      split <;> simp_all

end Sys2Proof
end

