-- ==== Sys2Proof/Laws/Memory.lean ====
section
/-! SUPPORT. The laws of memory: reading after writing, what a write leaves alone, and that every operation keeps the
canonical form. -/

namespace Sys2Proof.Machine

@[simp] theorem Memory.read_nil (x : Nat) : Memory.read [] x = none := rfl

@[simp] theorem Memory.read_cons (a : Nat) (b : Byte) (m : Memory) (x : Nat) :
    Memory.read ((a, b) :: m) x = if a = x then some b else Memory.read m x := rfl

/-- Read after write: the written offset gives the byte written, every other offset what it gave before. -/
theorem Memory.read_write (m : Memory) (x y : Nat) (v : Byte) :
    Memory.read (Memory.write m x v) y = if x = y then some v else Memory.read m y := by
  induction m with
  | nil => simp [Memory.write]
  | cons c m ih =>
    obtain ⟨a, b⟩ := c
    simp only [Memory.write]
    split
    · simp
    · split
      · subst_vars; simp only [Memory.read_cons]; split <;> rfl
      · simp only [Memory.read_cons, ih]
        split <;> split <;> first | rfl | omega

@[simp] theorem Memory.read_write_same (m : Memory) (x : Nat) (v : Byte) :
    Memory.read (Memory.write m x v) x = some v := by simp [Memory.read_write]

theorem Memory.read_write_other (m : Memory) {x y : Nat} (v : Byte) (h : x ≠ y) :
    Memory.read (Memory.write m x v) y = Memory.read m y := by simp [Memory.read_write, h]

/-- Where a written list lands: at its own offsets the list's bytes, elsewhere what was there. -/
theorem Memory.read_writeBytes (bs : List Byte) (m : Memory) (x y : Nat) :
    Memory.read (Memory.writeBytes m x bs) y
      = if x ≤ y ∧ y < x + bs.length then bs[y - x]? else Memory.read m y := by
  induction bs generalizing m x with
  | nil => simp [Memory.writeBytes]
  | cons b bs ih =>
    rw [Memory.writeBytes, ih, Memory.read_write]
    simp only [List.length_cons]
    by_cases h1 : x = y
    · subst h1; simp
    · by_cases h2 : x + 1 ≤ y ∧ y < x + 1 + bs.length
      · rw [if_pos h2, if_pos (by omega)]
        obtain ⟨k, rfl⟩ : ∃ k, y = x + 1 + k := ⟨y - (x + 1), by omega⟩
        rw [show x + 1 + k - (x + 1) = k by omega, show x + 1 + k - x = k + 1 by omega, List.getElem?_cons_succ]
      · rw [if_neg h2, if_neg h1, if_neg (by omega)]

theorem Memory.read_ofBytesFrom (bs : List Byte) (x y : Nat) :
    Memory.read (Memory.ofBytesFrom x bs) y = if x ≤ y then bs[y - x]? else none := by
  induction bs generalizing x with
  | nil => simp [Memory.ofBytesFrom]
  | cons b bs ih =>
    rw [Memory.ofBytesFrom, Memory.read_cons, ih]
    by_cases h1 : x = y
    · subst h1; simp
    · by_cases h2 : x + 1 ≤ y
      · rw [if_neg h1, if_pos h2, if_pos (by omega)]
        obtain ⟨k, rfl⟩ : ∃ k, y = x + 1 + k := ⟨y - (x + 1), by omega⟩
        rw [show x + 1 + k - (x + 1) = k by omega, show x + 1 + k - x = k + 1 by omega, List.getElem?_cons_succ]
      · rw [if_neg h1, if_neg h2, if_neg (by omega)]

@[simp] theorem Memory.read_ofBytes (bs : List Byte) (y : Nat) : Memory.read (Memory.ofBytes bs) y = bs[y]? := by
  simp [Memory.ofBytes, Memory.read_ofBytesFrom]

/-! ## Reading many bytes -/

@[simp] theorem Memory.readBytes_zero (m : Memory) (x : Nat) : m.readBytes x 0 = some [] := rfl

theorem Memory.readBytes_succ (m : Memory) (x n : Nat) :
    m.readBytes x (n + 1) = (m.read x).bind (fun b => (m.readBytes (x + 1) n).map (b :: ·)) := by
  simp only [Memory.readBytes]
  cases m.read x with
  | none => rfl
  | some b => simp only [Option.bind_some]; cases m.readBytes (x + 1) n <;> rfl

/-- Reading `n` bytes gives `bs` exactly when `bs` has `n` bytes and each is what its offset reads as. -/
theorem Memory.readBytes_eq_some (m : Memory) (x n : Nat) (bs : List Byte) :
    m.readBytes x n = some bs ↔ bs.length = n ∧ ∀ k, k < n → m.read (x + k) = bs[k]? := by
  induction n generalizing x bs with
  | zero =>
    simp only [Memory.readBytes_zero, Option.some.injEq]
    constructor
    · rintro rfl; simp
    · rintro ⟨h, -⟩; simpa using (List.length_eq_zero_iff.mp h).symm
  | succ n ih =>
    rw [Memory.readBytes_succ]
    constructor
    · intro h
      obtain ⟨b, hb, cs, hcs, rfl⟩ : ∃ b, m.read x = some b ∧ ∃ cs, m.readBytes (x + 1) n = some cs ∧ b :: cs = bs := by
        cases hb : m.read x with
        | none => simp [hb] at h
        | some b =>
          cases hc : m.readBytes (x + 1) n with
          | none => simp [hb, hc] at h
          | some cs => exact ⟨b, rfl, cs, rfl, by simpa [hb, hc] using h⟩
      obtain ⟨hl, hr⟩ := (ih _ _).mp hcs
      refine ⟨by simp [hl], fun k hk => ?_⟩
      cases k with
      | zero => simpa using hb
      | succ k => rw [List.getElem?_cons_succ, ← hr k (by omega)]; congr 1; omega
    · rintro ⟨hl, hr⟩
      cases bs with
      | nil => simp at hl
      | cons b cs =>
        have h0 := hr 0 (by omega)
        simp only [Nat.add_zero, List.getElem?_cons_zero] at h0
        rw [h0, Option.bind_some, (ih (x + 1) cs).mpr ⟨by simpa using hl, fun k hk => ?_⟩]
        · rfl
        · have := hr (k + 1) (by omega)
          rw [List.getElem?_cons_succ] at this
          rw [← this]; congr 1; omega

theorem Memory.readBytes_length {m : Memory} {x n : Nat} {bs : List Byte} (h : m.readBytes x n = some bs) :
    bs.length = n := ((Memory.readBytes_eq_some ..).mp h).1

/-- Where every byte is there, a read of many succeeds. -/
theorem Memory.readBytes_isSome {m : Memory} {x n : Nat} (h : ∀ k, k < n → (m.read (x + k)).isSome = true) :
    ∃ bs, m.readBytes x n = some bs := by
  induction n generalizing x with
  | zero => exact ⟨[], rfl⟩
  | succ n ih =>
    obtain ⟨b, hb⟩ := Option.isSome_iff_exists.mp (h 0 (by omega))
    obtain ⟨bs, hbs⟩ := ih (x := x + 1) (fun k hk => by
      have := h (k + 1) (by omega)
      rwa [show x + (k + 1) = x + 1 + k by omega] at this)
    exact ⟨b :: bs, by rw [Memory.readBytes_succ, show m.read x = some b from hb, hbs]; rfl⟩

/-- A read of many depends on the bytes it reads alone. -/
theorem Memory.readBytes_congr {m m' : Memory} {x n : Nat} (h : ∀ k, k < n → m.read (x + k) = m'.read (x + k)) :
    m.readBytes x n = m'.readBytes x n := by
  induction n generalizing x with
  | zero => rfl
  | succ n ih =>
    rw [Memory.readBytes_succ, Memory.readBytes_succ, show m.read x = m'.read x from h 0 (by omega),
      ih (x := x + 1) (fun k hk => by
        have := h (k + 1) (by omega)
        rwa [show x + (k + 1) = x + 1 + k by omega] at this)]

/-- Reading on: `n + k` bytes are the first `n` and then `k` more. -/
theorem Memory.readBytes_append {m : Memory} {x n k : Nat} {as bs : List Byte} (h1 : m.readBytes x n = some as)
    (h2 : m.readBytes (x + n) k = some bs) : m.readBytes x (n + k) = some (as ++ bs) := by
  rw [Memory.readBytes_eq_some] at *
  obtain ⟨l1, r1⟩ := h1
  obtain ⟨l2, r2⟩ := h2
  refine ⟨by simp [l1, l2], fun j hj => ?_⟩
  by_cases h : j < n
  · rw [List.getElem?_append_left (by omega), r1 j h]
  · rw [List.getElem?_append_right (by omega), l1, ← r2 (j - n) (by omega)]; congr 1; omega

/-! ## The canonical form -/

theorem Memory.wf_nil : Memory.wf [] := List.Pairwise.nil

theorem Memory.mem_write {m : Memory} {x : Nat} {v : Byte} {c : Host.Cell} (h : c ∈ Memory.write m x v) :
    c = (x, v) ∨ c ∈ m := by
  induction m with
  | nil => simpa [Memory.write] using h
  | cons d m ih =>
    obtain ⟨a, b⟩ := d
    simp only [Memory.write] at h
    split at h
    · simpa using h
    · split at h
      · rcases List.mem_cons.mp h with h | h
        · exact .inl h
        · exact .inr (List.mem_cons_of_mem _ h)
      · rcases List.mem_cons.mp h with h | h
        · exact .inr (h ▸ List.mem_cons_self)
        · rcases ih h with h | h
          · exact .inl h
          · exact .inr (List.mem_cons_of_mem _ h)

/-- A write keeps the canonical form. -/
theorem Memory.wf_write {m : Memory} (x : Nat) (v : Byte) (h : m.wf) : (Memory.write m x v).wf := by
  induction m with
  | nil => simp [Memory.write, Memory.wf]
  | cons c m ih =>
    obtain ⟨a, b⟩ := c
    obtain ⟨hhead, htail⟩ := List.pairwise_cons.mp h
    simp only [Memory.write]
    split
    · next hx =>
      refine List.pairwise_cons.mpr ⟨fun c hc => ?_, h⟩
      rcases List.mem_cons.mp hc with rfl | hc
      · exact hx
      · exact Nat.lt_trans hx (hhead c hc)
    · split
      · next hx => subst hx; exact List.pairwise_cons.mpr ⟨hhead, htail⟩
      · refine List.pairwise_cons.mpr ⟨fun c hc => ?_, ih htail⟩
        rcases Memory.mem_write hc with rfl | hc
        · show a < x; omega
        · exact hhead c hc

theorem Memory.wf_writeBytes {m : Memory} (x : Nat) (bs : List Byte) (h : m.wf) : (Memory.writeBytes m x bs).wf := by
  induction bs generalizing m x with
  | nil => exact h
  | cons b bs ih => exact ih _ (Memory.wf_write x b h)

theorem Memory.wf_ofBytesFrom (x : Nat) (bs : List Byte) : (Memory.ofBytesFrom x bs).wf := by
  have low : ∀ (bs : List Byte) (x : Nat) (c : Host.Cell), c ∈ Memory.ofBytesFrom x bs → x ≤ c.1 := by
    intro bs
    induction bs with
    | nil => simp [Memory.ofBytesFrom]
    | cons b bs ih =>
      intro x c hc
      rcases List.mem_cons.mp hc with rfl | hc
      · exact Nat.le_refl _
      · exact Nat.le_of_succ_le (ih _ _ hc)
  induction bs generalizing x with
  | nil => exact Memory.wf_nil
  | cons b bs ih => exact List.pairwise_cons.mpr ⟨fun c hc => low _ _ _ hc, ih _⟩

theorem Memory.wf_ofBytes (bs : List Byte) : (Memory.ofBytes bs).wf := Memory.wf_ofBytesFrom 0 bs

/-- Hard reset's memory is canonical. -/
theorem State.reset_spacesWf : State.reset.spacesWf :=
  ⟨Memory.wf_nil, Memory.wf_nil, Memory.wf_nil, Memory.wf_nil⟩

/-! ## Coverage -/

theorem Memory.covers_zero (m : Memory) : m.covers 0 := fun _ h => absurd h (Nat.not_lt_zero _)

theorem Memory.covers_mono {m : Memory} {n k : Nat} (h : m.covers n) (hk : k ≤ n) : m.covers k :=
  fun a ha => h a (by omega)

theorem Memory.covers_write {m : Memory} {n : Nat} (x : Nat) (v : Byte) (h : m.covers n) :
    (Memory.write m x v).covers n := fun a ha => by
  rw [Memory.read_write]; split
  · rfl
  · exact h a ha

/-- Writing the next byte extends the coverage. -/
theorem Memory.covers_write_next {m : Memory} {n : Nat} (v : Byte) (h : m.covers n) :
    (Memory.write m n v).covers (n + 1) := fun a ha => by
  rw [Memory.read_write]; split
  · rfl
  · exact h a (by omega)

/-- Appending bytes extends the coverage by their number. -/
theorem Memory.covers_writeBytes {m : Memory} {n : Nat} (bs : List Byte) (h : m.covers n) :
    (Memory.writeBytes m n bs).covers (n + bs.length) := fun a ha => by
  rw [Memory.read_writeBytes]; split
  · rw [List.getElem?_eq_getElem (by omega)]; rfl
  · exact h a (by omega)

theorem Memory.covers_ofBytes (bs : List Byte) : (Memory.ofBytes bs).covers bs.length := fun a ha => by
  rw [Memory.read_ofBytes, List.getElem?_eq_getElem ha]; rfl

end Sys2Proof.Machine
end

