-- ==== Sys2Proof/Laws/State.lean ====
section
/-! SUPPORT. For each named update of the state, what every field is after it: the value written, or the value before.
(For updates written as record literals Lean reduces the projections by itself.) -/

namespace Sys2Proof.Machine

/-! ## `raise` -/

@[simp] theorem raise_phase (c : Cause) (tag : Word32) (pos : Word64) (s : State) : (raise c tag pos s).phase = .error := rfl
@[simp] theorem raise_cmdLatch (c : Cause) (tag : Word32) (pos : Word64) (s : State) : (raise c tag pos s).cmdLatch = s.cmdLatch := rfl
@[simp] theorem raise_feCursor (c : Cause) (tag : Word32) (pos : Word64) (s : State) : (raise c tag pos s).feCursor = s.feCursor := rfl
@[simp] theorem raise_feLen (c : Cause) (tag : Word32) (pos : Word64) (s : State) : (raise c tag pos s).feLen = s.feLen := rfl
@[simp] theorem raise_feTag (c : Cause) (tag : Word32) (pos : Word64) (s : State) : (raise c tag pos s).feTag = s.feTag := rfl
@[simp] theorem raise_width (c : Cause) (tag : Word32) (pos : Word64) (s : State) : (raise c tag pos s).width = s.width := rfl
@[simp] theorem raise_height (c : Cause) (tag : Word32) (pos : Word64) (s : State) : (raise c tag pos s).height = s.height := rfl
@[simp] theorem raise_bitDepth (c : Cause) (tag : Word32) (pos : Word64) (s : State) : (raise c tag pos s).bitDepth = s.bitDepth := rfl
@[simp] theorem raise_colorModel (c : Cause) (tag : Word32) (pos : Word64) (s : State) : (raise c tag pos s).colorModel = s.colorModel := rfl
@[simp] theorem raise_interlace (c : Cause) (tag : Word32) (pos : Word64) (s : State) : (raise c tag pos s).interlace = s.interlace := rfl
@[simp] theorem raise_hdrSeen (c : Cause) (tag : Word32) (pos : Word64) (s : State) : (raise c tag pos s).hdrSeen = s.hdrSeen := rfl
@[simp] theorem raise_palSeen (c : Cause) (tag : Word32) (pos : Word64) (s : State) : (raise c tag pos s).palSeen = s.palSeen := rfl
@[simp] theorem raise_bkgdSeen (c : Cause) (tag : Word32) (pos : Word64) (s : State) : (raise c tag pos s).bkgdSeen = s.bkgdSeen := rfl
@[simp] theorem raise_dataSeen (c : Cause) (tag : Word32) (pos : Word64) (s : State) : (raise c tag pos s).dataSeen = s.dataSeen := rfl
@[simp] theorem raise_trnsSeen (c : Cause) (tag : Word32) (pos : Word64) (s : State) : (raise c tag pos s).trnsSeen = s.trnsSeen := rfl
@[simp] theorem raise_endSeen (c : Cause) (tag : Word32) (pos : Word64) (s : State) : (raise c tag pos s).endSeen = s.endSeen := rfl
@[simp] theorem raise_pal (c : Cause) (tag : Word32) (pos : Word64) (s : State) : (raise c tag pos s).pal = s.pal := rfl
@[simp] theorem raise_trnsKind (c : Cause) (tag : Word32) (pos : Word64) (s : State) : (raise c tag pos s).trnsKind = s.trnsKind := rfl
@[simp] theorem raise_trnsAlpha (c : Cause) (tag : Word32) (pos : Word64) (s : State) : (raise c tag pos s).trnsAlpha = s.trnsAlpha := rfl
@[simp] theorem raise_trnsGrey (c : Cause) (tag : Word32) (pos : Word64) (s : State) : (raise c tag pos s).trnsGrey = s.trnsGrey := rfl
@[simp] theorem raise_trnsR (c : Cause) (tag : Word32) (pos : Word64) (s : State) : (raise c tag pos s).trnsR = s.trnsR := rfl
@[simp] theorem raise_trnsG (c : Cause) (tag : Word32) (pos : Word64) (s : State) : (raise c tag pos s).trnsG = s.trnsG := rfl
@[simp] theorem raise_trnsB (c : Cause) (tag : Word32) (pos : Word64) (s : State) : (raise c tag pos s).trnsB = s.trnsB := rfl
@[simp] theorem raise_bkgdKind (c : Cause) (tag : Word32) (pos : Word64) (s : State) : (raise c tag pos s).bkgdKind = s.bkgdKind := rfl
@[simp] theorem raise_bkgdIndex (c : Cause) (tag : Word32) (pos : Word64) (s : State) : (raise c tag pos s).bkgdIndex = s.bkgdIndex := rfl
@[simp] theorem raise_bkgdGrey (c : Cause) (tag : Word32) (pos : Word64) (s : State) : (raise c tag pos s).bkgdGrey = s.bkgdGrey := rfl
@[simp] theorem raise_bkgdR (c : Cause) (tag : Word32) (pos : Word64) (s : State) : (raise c tag pos s).bkgdR = s.bkgdR := rfl
@[simp] theorem raise_bkgdG (c : Cause) (tag : Word32) (pos : Word64) (s : State) : (raise c tag pos s).bkgdG = s.bkgdG := rfl
@[simp] theorem raise_bkgdB (c : Cause) (tag : Word32) (pos : Word64) (s : State) : (raise c tag pos s).bkgdB = s.bkgdB := rfl
@[simp] theorem raise_zlen (c : Cause) (tag : Word32) (pos : Word64) (s : State) : (raise c tag pos s).zlen = s.zlen := rfl
@[simp] theorem raise_bpp (c : Cause) (tag : Word32) (pos : Word64) (s : State) : (raise c tag pos s).bpp = s.bpp := rfl
@[simp] theorem raise_rowbytes (c : Cause) (tag : Word32) (pos : Word64) (s : State) : (raise c tag pos s).rowbytes = s.rowbytes := rfl
@[simp] theorem raise_fLen (c : Cause) (tag : Word32) (pos : Word64) (s : State) : (raise c tag pos s).fLen = s.fLen := rfl
@[simp] theorem raise_dfRow (c : Cause) (tag : Word32) (pos : Word64) (s : State) : (raise c tag pos s).dfRow = s.dfRow := rfl
@[simp] theorem raise_dfCol (c : Cause) (tag : Word32) (pos : Word64) (s : State) : (raise c tag pos s).dfCol = s.dfCol := rfl
@[simp] theorem raise_dfFtype (c : Cause) (tag : Word32) (pos : Word64) (s : State) : (raise c tag pos s).dfFtype = s.dfFtype := rfl
@[simp] theorem raise_dfFpos (c : Cause) (tag : Word32) (pos : Word64) (s : State) : (raise c tag pos s).dfFpos = s.dfFpos := rfl
@[simp] theorem raise_dfOpos (c : Cause) (tag : Word32) (pos : Word64) (s : State) : (raise c tag pos s).dfOpos = s.dfOpos := rfl
@[simp] theorem raise_dfX (c : Cause) (tag : Word32) (pos : Word64) (s : State) : (raise c tag pos s).dfX = s.dfX := rfl
@[simp] theorem raise_dfA (c : Cause) (tag : Word32) (pos : Word64) (s : State) : (raise c tag pos s).dfA = s.dfA := rfl
@[simp] theorem raise_dfB (c : Cause) (tag : Word32) (pos : Word64) (s : State) : (raise c tag pos s).dfB = s.dfB := rfl
@[simp] theorem raise_dfC (c : Cause) (tag : Word32) (pos : Word64) (s : State) : (raise c tag pos s).dfC = s.dfC := rfl
@[simp] theorem raise_dfPr (c : Cause) (tag : Word32) (pos : Word64) (s : State) : (raise c tag pos s).dfPr = s.dfPr := rfl
@[simp] theorem raise_dfP (c : Cause) (tag : Word32) (pos : Word64) (s : State) : (raise c tag pos s).dfP = s.dfP := rfl
@[simp] theorem raise_dfPa (c : Cause) (tag : Word32) (pos : Word64) (s : State) : (raise c tag pos s).dfPa = s.dfPa := rfl
@[simp] theorem raise_dfPb (c : Cause) (tag : Word32) (pos : Word64) (s : State) : (raise c tag pos s).dfPb = s.dfPb := rfl
@[simp] theorem raise_dfPc (c : Cause) (tag : Word32) (pos : Word64) (s : State) : (raise c tag pos s).dfPc = s.dfPc := rfl
@[simp] theorem raise_errKind (c : Cause) (tag : Word32) (pos : Word64) (s : State) : (raise c tag pos s).errKind = c.kind := rfl
@[simp] theorem raise_errCause (c : Cause) (tag : Word32) (pos : Word64) (s : State) : (raise c tag pos s).errCause = c.code := rfl
@[simp] theorem raise_errTag (c : Cause) (tag : Word32) (pos : Word64) (s : State) : (raise c tag pos s).errTag = tag := rfl
@[simp] theorem raise_errPos (c : Cause) (tag : Word32) (pos : Word64) (s : State) : (raise c tag pos s).errPos = pos := rfl
@[simp] theorem raise_excessReject (c : Cause) (tag : Word32) (pos : Word64) (s : State) : (raise c tag pos s).excessReject = s.excessReject := rfl
@[simp] theorem raise_inLen (c : Cause) (tag : Word32) (pos : Word64) (s : State) : (raise c tag pos s).inLen = s.inLen := rfl
@[simp] theorem raise_oLen (c : Cause) (tag : Word32) (pos : Word64) (s : State) : (raise c tag pos s).oLen = s.oLen := rfl
@[simp] theorem raise_inMem (c : Cause) (tag : Word32) (pos : Word64) (s : State) : (raise c tag pos s).inMem = s.inMem := rfl
@[simp] theorem raise_zbuf (c : Cause) (tag : Word32) (pos : Word64) (s : State) : (raise c tag pos s).zbuf = s.zbuf := rfl
@[simp] theorem raise_fbuf (c : Cause) (tag : Word32) (pos : Word64) (s : State) : (raise c tag pos s).fbuf = s.fbuf := rfl
@[simp] theorem raise_obuf (c : Cause) (tag : Word32) (pos : Word64) (s : State) : (raise c tag pos s).obuf = s.obuf := rfl
@[simp] theorem raise_host (c : Cause) (tag : Word32) (pos : Word64) (s : State) : (raise c tag pos s).host = s.host := rfl

/-! ## `clear` -/

@[simp] theorem clear_phase (s : State) : (clear s).phase = .idle := rfl
@[simp] theorem clear_cmdLatch (s : State) : (clear s).cmdLatch = .noCommand := rfl
@[simp] theorem clear_feCursor (s : State) : (clear s).feCursor = s.feCursor := rfl
@[simp] theorem clear_feLen (s : State) : (clear s).feLen = s.feLen := rfl
@[simp] theorem clear_feTag (s : State) : (clear s).feTag = s.feTag := rfl
@[simp] theorem clear_width (s : State) : (clear s).width = s.width := rfl
@[simp] theorem clear_height (s : State) : (clear s).height = s.height := rfl
@[simp] theorem clear_bitDepth (s : State) : (clear s).bitDepth = s.bitDepth := rfl
@[simp] theorem clear_colorModel (s : State) : (clear s).colorModel = s.colorModel := rfl
@[simp] theorem clear_interlace (s : State) : (clear s).interlace = s.interlace := rfl
@[simp] theorem clear_hdrSeen (s : State) : (clear s).hdrSeen = s.hdrSeen := rfl
@[simp] theorem clear_palSeen (s : State) : (clear s).palSeen = s.palSeen := rfl
@[simp] theorem clear_bkgdSeen (s : State) : (clear s).bkgdSeen = s.bkgdSeen := rfl
@[simp] theorem clear_dataSeen (s : State) : (clear s).dataSeen = s.dataSeen := rfl
@[simp] theorem clear_trnsSeen (s : State) : (clear s).trnsSeen = s.trnsSeen := rfl
@[simp] theorem clear_endSeen (s : State) : (clear s).endSeen = s.endSeen := rfl
@[simp] theorem clear_pal (s : State) : (clear s).pal = s.pal := rfl
@[simp] theorem clear_trnsKind (s : State) : (clear s).trnsKind = s.trnsKind := rfl
@[simp] theorem clear_trnsAlpha (s : State) : (clear s).trnsAlpha = s.trnsAlpha := rfl
@[simp] theorem clear_trnsGrey (s : State) : (clear s).trnsGrey = s.trnsGrey := rfl
@[simp] theorem clear_trnsR (s : State) : (clear s).trnsR = s.trnsR := rfl
@[simp] theorem clear_trnsG (s : State) : (clear s).trnsG = s.trnsG := rfl
@[simp] theorem clear_trnsB (s : State) : (clear s).trnsB = s.trnsB := rfl
@[simp] theorem clear_bkgdKind (s : State) : (clear s).bkgdKind = s.bkgdKind := rfl
@[simp] theorem clear_bkgdIndex (s : State) : (clear s).bkgdIndex = s.bkgdIndex := rfl
@[simp] theorem clear_bkgdGrey (s : State) : (clear s).bkgdGrey = s.bkgdGrey := rfl
@[simp] theorem clear_bkgdR (s : State) : (clear s).bkgdR = s.bkgdR := rfl
@[simp] theorem clear_bkgdG (s : State) : (clear s).bkgdG = s.bkgdG := rfl
@[simp] theorem clear_bkgdB (s : State) : (clear s).bkgdB = s.bkgdB := rfl
@[simp] theorem clear_zlen (s : State) : (clear s).zlen = s.zlen := rfl
@[simp] theorem clear_bpp (s : State) : (clear s).bpp = s.bpp := rfl
@[simp] theorem clear_rowbytes (s : State) : (clear s).rowbytes = s.rowbytes := rfl
@[simp] theorem clear_fLen (s : State) : (clear s).fLen = s.fLen := rfl
@[simp] theorem clear_dfRow (s : State) : (clear s).dfRow = s.dfRow := rfl
@[simp] theorem clear_dfCol (s : State) : (clear s).dfCol = s.dfCol := rfl
@[simp] theorem clear_dfFtype (s : State) : (clear s).dfFtype = s.dfFtype := rfl
@[simp] theorem clear_dfFpos (s : State) : (clear s).dfFpos = s.dfFpos := rfl
@[simp] theorem clear_dfOpos (s : State) : (clear s).dfOpos = s.dfOpos := rfl
@[simp] theorem clear_dfX (s : State) : (clear s).dfX = s.dfX := rfl
@[simp] theorem clear_dfA (s : State) : (clear s).dfA = s.dfA := rfl
@[simp] theorem clear_dfB (s : State) : (clear s).dfB = s.dfB := rfl
@[simp] theorem clear_dfC (s : State) : (clear s).dfC = s.dfC := rfl
@[simp] theorem clear_dfPr (s : State) : (clear s).dfPr = s.dfPr := rfl
@[simp] theorem clear_dfP (s : State) : (clear s).dfP = s.dfP := rfl
@[simp] theorem clear_dfPa (s : State) : (clear s).dfPa = s.dfPa := rfl
@[simp] theorem clear_dfPb (s : State) : (clear s).dfPb = s.dfPb := rfl
@[simp] theorem clear_dfPc (s : State) : (clear s).dfPc = s.dfPc := rfl
@[simp] theorem clear_errKind (s : State) : (clear s).errKind = .noError := rfl
@[simp] theorem clear_errCause (s : State) : (clear s).errCause = 0 := rfl
@[simp] theorem clear_errTag (s : State) : (clear s).errTag = 0 := rfl
@[simp] theorem clear_errPos (s : State) : (clear s).errPos = 0 := rfl
@[simp] theorem clear_excessReject (s : State) : (clear s).excessReject = s.excessReject := rfl
@[simp] theorem clear_inLen (s : State) : (clear s).inLen = s.inLen := rfl
@[simp] theorem clear_oLen (s : State) : (clear s).oLen = s.oLen := rfl
@[simp] theorem clear_inMem (s : State) : (clear s).inMem = s.inMem := rfl
@[simp] theorem clear_zbuf (s : State) : (clear s).zbuf = s.zbuf := rfl
@[simp] theorem clear_fbuf (s : State) : (clear s).fbuf = s.fbuf := rfl
@[simp] theorem clear_obuf (s : State) : (clear s).obuf = s.obuf := rfl
@[simp] theorem clear_host (s : State) : (clear s).host = s.host := rfl

/-! ## `defilterInit` -/

@[simp] theorem defilterInit_phase (s : State) : (defilterInit s).phase = s.phase := rfl
@[simp] theorem defilterInit_cmdLatch (s : State) : (defilterInit s).cmdLatch = s.cmdLatch := rfl
@[simp] theorem defilterInit_feCursor (s : State) : (defilterInit s).feCursor = s.feCursor := rfl
@[simp] theorem defilterInit_feLen (s : State) : (defilterInit s).feLen = s.feLen := rfl
@[simp] theorem defilterInit_feTag (s : State) : (defilterInit s).feTag = s.feTag := rfl
@[simp] theorem defilterInit_width (s : State) : (defilterInit s).width = s.width := rfl
@[simp] theorem defilterInit_height (s : State) : (defilterInit s).height = s.height := rfl
@[simp] theorem defilterInit_bitDepth (s : State) : (defilterInit s).bitDepth = s.bitDepth := rfl
@[simp] theorem defilterInit_colorModel (s : State) : (defilterInit s).colorModel = s.colorModel := rfl
@[simp] theorem defilterInit_interlace (s : State) : (defilterInit s).interlace = s.interlace := rfl
@[simp] theorem defilterInit_hdrSeen (s : State) : (defilterInit s).hdrSeen = s.hdrSeen := rfl
@[simp] theorem defilterInit_palSeen (s : State) : (defilterInit s).palSeen = s.palSeen := rfl
@[simp] theorem defilterInit_bkgdSeen (s : State) : (defilterInit s).bkgdSeen = s.bkgdSeen := rfl
@[simp] theorem defilterInit_dataSeen (s : State) : (defilterInit s).dataSeen = s.dataSeen := rfl
@[simp] theorem defilterInit_trnsSeen (s : State) : (defilterInit s).trnsSeen = s.trnsSeen := rfl
@[simp] theorem defilterInit_endSeen (s : State) : (defilterInit s).endSeen = s.endSeen := rfl
@[simp] theorem defilterInit_pal (s : State) : (defilterInit s).pal = s.pal := rfl
@[simp] theorem defilterInit_trnsKind (s : State) : (defilterInit s).trnsKind = s.trnsKind := rfl
@[simp] theorem defilterInit_trnsAlpha (s : State) : (defilterInit s).trnsAlpha = s.trnsAlpha := rfl
@[simp] theorem defilterInit_trnsGrey (s : State) : (defilterInit s).trnsGrey = s.trnsGrey := rfl
@[simp] theorem defilterInit_trnsR (s : State) : (defilterInit s).trnsR = s.trnsR := rfl
@[simp] theorem defilterInit_trnsG (s : State) : (defilterInit s).trnsG = s.trnsG := rfl
@[simp] theorem defilterInit_trnsB (s : State) : (defilterInit s).trnsB = s.trnsB := rfl
@[simp] theorem defilterInit_bkgdKind (s : State) : (defilterInit s).bkgdKind = s.bkgdKind := rfl
@[simp] theorem defilterInit_bkgdIndex (s : State) : (defilterInit s).bkgdIndex = s.bkgdIndex := rfl
@[simp] theorem defilterInit_bkgdGrey (s : State) : (defilterInit s).bkgdGrey = s.bkgdGrey := rfl
@[simp] theorem defilterInit_bkgdR (s : State) : (defilterInit s).bkgdR = s.bkgdR := rfl
@[simp] theorem defilterInit_bkgdG (s : State) : (defilterInit s).bkgdG = s.bkgdG := rfl
@[simp] theorem defilterInit_bkgdB (s : State) : (defilterInit s).bkgdB = s.bkgdB := rfl
@[simp] theorem defilterInit_zlen (s : State) : (defilterInit s).zlen = s.zlen := rfl
@[simp] theorem defilterInit_bpp (s : State) : (defilterInit s).bpp = s.bpp := rfl
@[simp] theorem defilterInit_rowbytes (s : State) : (defilterInit s).rowbytes = s.rowbytes := rfl
@[simp] theorem defilterInit_fLen (s : State) : (defilterInit s).fLen = s.fLen := rfl
@[simp] theorem defilterInit_dfRow (s : State) : (defilterInit s).dfRow = 0 := rfl
@[simp] theorem defilterInit_dfCol (s : State) : (defilterInit s).dfCol = 0 := rfl
@[simp] theorem defilterInit_dfFtype (s : State) : (defilterInit s).dfFtype = .noFilter := rfl
@[simp] theorem defilterInit_dfFpos (s : State) : (defilterInit s).dfFpos = 0 := rfl
@[simp] theorem defilterInit_dfOpos (s : State) : (defilterInit s).dfOpos = 0 := rfl
@[simp] theorem defilterInit_dfX (s : State) : (defilterInit s).dfX = s.dfX := rfl
@[simp] theorem defilterInit_dfA (s : State) : (defilterInit s).dfA = s.dfA := rfl
@[simp] theorem defilterInit_dfB (s : State) : (defilterInit s).dfB = s.dfB := rfl
@[simp] theorem defilterInit_dfC (s : State) : (defilterInit s).dfC = s.dfC := rfl
@[simp] theorem defilterInit_dfPr (s : State) : (defilterInit s).dfPr = s.dfPr := rfl
@[simp] theorem defilterInit_dfP (s : State) : (defilterInit s).dfP = s.dfP := rfl
@[simp] theorem defilterInit_dfPa (s : State) : (defilterInit s).dfPa = s.dfPa := rfl
@[simp] theorem defilterInit_dfPb (s : State) : (defilterInit s).dfPb = s.dfPb := rfl
@[simp] theorem defilterInit_dfPc (s : State) : (defilterInit s).dfPc = s.dfPc := rfl
@[simp] theorem defilterInit_errKind (s : State) : (defilterInit s).errKind = s.errKind := rfl
@[simp] theorem defilterInit_errCause (s : State) : (defilterInit s).errCause = s.errCause := rfl
@[simp] theorem defilterInit_errTag (s : State) : (defilterInit s).errTag = s.errTag := rfl
@[simp] theorem defilterInit_errPos (s : State) : (defilterInit s).errPos = s.errPos := rfl
@[simp] theorem defilterInit_excessReject (s : State) : (defilterInit s).excessReject = s.excessReject := rfl
@[simp] theorem defilterInit_inLen (s : State) : (defilterInit s).inLen = s.inLen := rfl
@[simp] theorem defilterInit_oLen (s : State) : (defilterInit s).oLen = s.oLen := rfl
@[simp] theorem defilterInit_inMem (s : State) : (defilterInit s).inMem = s.inMem := rfl
@[simp] theorem defilterInit_zbuf (s : State) : (defilterInit s).zbuf = s.zbuf := rfl
@[simp] theorem defilterInit_fbuf (s : State) : (defilterInit s).fbuf = s.fbuf := rfl
@[simp] theorem defilterInit_obuf (s : State) : (defilterInit s).obuf = s.obuf := rfl
@[simp] theorem defilterInit_host (s : State) : (defilterInit s).host = s.host := rfl

/-! ## `nextRow` -/

@[simp] theorem nextRow_phase (s : State) : (nextRow s).phase = s.phase := rfl
@[simp] theorem nextRow_cmdLatch (s : State) : (nextRow s).cmdLatch = s.cmdLatch := rfl
@[simp] theorem nextRow_feCursor (s : State) : (nextRow s).feCursor = s.feCursor := rfl
@[simp] theorem nextRow_feLen (s : State) : (nextRow s).feLen = s.feLen := rfl
@[simp] theorem nextRow_feTag (s : State) : (nextRow s).feTag = s.feTag := rfl
@[simp] theorem nextRow_width (s : State) : (nextRow s).width = s.width := rfl
@[simp] theorem nextRow_height (s : State) : (nextRow s).height = s.height := rfl
@[simp] theorem nextRow_bitDepth (s : State) : (nextRow s).bitDepth = s.bitDepth := rfl
@[simp] theorem nextRow_colorModel (s : State) : (nextRow s).colorModel = s.colorModel := rfl
@[simp] theorem nextRow_interlace (s : State) : (nextRow s).interlace = s.interlace := rfl
@[simp] theorem nextRow_hdrSeen (s : State) : (nextRow s).hdrSeen = s.hdrSeen := rfl
@[simp] theorem nextRow_palSeen (s : State) : (nextRow s).palSeen = s.palSeen := rfl
@[simp] theorem nextRow_bkgdSeen (s : State) : (nextRow s).bkgdSeen = s.bkgdSeen := rfl
@[simp] theorem nextRow_dataSeen (s : State) : (nextRow s).dataSeen = s.dataSeen := rfl
@[simp] theorem nextRow_trnsSeen (s : State) : (nextRow s).trnsSeen = s.trnsSeen := rfl
@[simp] theorem nextRow_endSeen (s : State) : (nextRow s).endSeen = s.endSeen := rfl
@[simp] theorem nextRow_pal (s : State) : (nextRow s).pal = s.pal := rfl
@[simp] theorem nextRow_trnsKind (s : State) : (nextRow s).trnsKind = s.trnsKind := rfl
@[simp] theorem nextRow_trnsAlpha (s : State) : (nextRow s).trnsAlpha = s.trnsAlpha := rfl
@[simp] theorem nextRow_trnsGrey (s : State) : (nextRow s).trnsGrey = s.trnsGrey := rfl
@[simp] theorem nextRow_trnsR (s : State) : (nextRow s).trnsR = s.trnsR := rfl
@[simp] theorem nextRow_trnsG (s : State) : (nextRow s).trnsG = s.trnsG := rfl
@[simp] theorem nextRow_trnsB (s : State) : (nextRow s).trnsB = s.trnsB := rfl
@[simp] theorem nextRow_bkgdKind (s : State) : (nextRow s).bkgdKind = s.bkgdKind := rfl
@[simp] theorem nextRow_bkgdIndex (s : State) : (nextRow s).bkgdIndex = s.bkgdIndex := rfl
@[simp] theorem nextRow_bkgdGrey (s : State) : (nextRow s).bkgdGrey = s.bkgdGrey := rfl
@[simp] theorem nextRow_bkgdR (s : State) : (nextRow s).bkgdR = s.bkgdR := rfl
@[simp] theorem nextRow_bkgdG (s : State) : (nextRow s).bkgdG = s.bkgdG := rfl
@[simp] theorem nextRow_bkgdB (s : State) : (nextRow s).bkgdB = s.bkgdB := rfl
@[simp] theorem nextRow_zlen (s : State) : (nextRow s).zlen = s.zlen := rfl
@[simp] theorem nextRow_bpp (s : State) : (nextRow s).bpp = s.bpp := rfl
@[simp] theorem nextRow_rowbytes (s : State) : (nextRow s).rowbytes = s.rowbytes := rfl
@[simp] theorem nextRow_fLen (s : State) : (nextRow s).fLen = s.fLen := rfl
@[simp] theorem nextRow_dfRow (s : State) : (nextRow s).dfRow = BitVec.ofNat 32 (s.dfRow.toNat + 1) := rfl
@[simp] theorem nextRow_dfCol (s : State) : (nextRow s).dfCol = 0#64 := rfl
@[simp] theorem nextRow_dfFtype (s : State) : (nextRow s).dfFtype = s.dfFtype := rfl
@[simp] theorem nextRow_dfFpos (s : State) : (nextRow s).dfFpos = BitVec.ofNat 64 (s.dfFpos.toNat + 1 + s.rowbytes.toNat) := rfl
@[simp] theorem nextRow_dfOpos (s : State) : (nextRow s).dfOpos = BitVec.ofNat 64 (s.dfOpos.toNat + s.rowbytes.toNat) := rfl
@[simp] theorem nextRow_dfX (s : State) : (nextRow s).dfX = s.dfX := rfl
@[simp] theorem nextRow_dfA (s : State) : (nextRow s).dfA = s.dfA := rfl
@[simp] theorem nextRow_dfB (s : State) : (nextRow s).dfB = s.dfB := rfl
@[simp] theorem nextRow_dfC (s : State) : (nextRow s).dfC = s.dfC := rfl
@[simp] theorem nextRow_dfPr (s : State) : (nextRow s).dfPr = s.dfPr := rfl
@[simp] theorem nextRow_dfP (s : State) : (nextRow s).dfP = s.dfP := rfl
@[simp] theorem nextRow_dfPa (s : State) : (nextRow s).dfPa = s.dfPa := rfl
@[simp] theorem nextRow_dfPb (s : State) : (nextRow s).dfPb = s.dfPb := rfl
@[simp] theorem nextRow_dfPc (s : State) : (nextRow s).dfPc = s.dfPc := rfl
@[simp] theorem nextRow_errKind (s : State) : (nextRow s).errKind = s.errKind := rfl
@[simp] theorem nextRow_errCause (s : State) : (nextRow s).errCause = s.errCause := rfl
@[simp] theorem nextRow_errTag (s : State) : (nextRow s).errTag = s.errTag := rfl
@[simp] theorem nextRow_errPos (s : State) : (nextRow s).errPos = s.errPos := rfl
@[simp] theorem nextRow_excessReject (s : State) : (nextRow s).excessReject = s.excessReject := rfl
@[simp] theorem nextRow_inLen (s : State) : (nextRow s).inLen = s.inLen := rfl
@[simp] theorem nextRow_oLen (s : State) : (nextRow s).oLen = s.oLen := rfl
@[simp] theorem nextRow_inMem (s : State) : (nextRow s).inMem = s.inMem := rfl
@[simp] theorem nextRow_zbuf (s : State) : (nextRow s).zbuf = s.zbuf := rfl
@[simp] theorem nextRow_fbuf (s : State) : (nextRow s).fbuf = s.fbuf := rfl
@[simp] theorem nextRow_obuf (s : State) : (nextRow s).obuf = s.obuf := rfl
@[simp] theorem nextRow_host (s : State) : (nextRow s).host = s.host := rfl

/-! ## `advanceFrame` -/

@[simp] theorem advanceFrame_phase (tag : Word32) (len : Nat) (s : State) : (advanceFrame tag len s).phase = s.phase := rfl
@[simp] theorem advanceFrame_cmdLatch (tag : Word32) (len : Nat) (s : State) : (advanceFrame tag len s).cmdLatch = s.cmdLatch := rfl
@[simp] theorem advanceFrame_feCursor (tag : Word32) (len : Nat) (s : State) : (advanceFrame tag len s).feCursor = BitVec.ofNat 64 (s.feCursor.toNat + 12 + len) := rfl
@[simp] theorem advanceFrame_feLen (tag : Word32) (len : Nat) (s : State) : (advanceFrame tag len s).feLen = BitVec.ofNat 32 len := rfl
@[simp] theorem advanceFrame_feTag (tag : Word32) (len : Nat) (s : State) : (advanceFrame tag len s).feTag = tag := rfl
@[simp] theorem advanceFrame_width (tag : Word32) (len : Nat) (s : State) : (advanceFrame tag len s).width = s.width := rfl
@[simp] theorem advanceFrame_height (tag : Word32) (len : Nat) (s : State) : (advanceFrame tag len s).height = s.height := rfl
@[simp] theorem advanceFrame_bitDepth (tag : Word32) (len : Nat) (s : State) : (advanceFrame tag len s).bitDepth = s.bitDepth := rfl
@[simp] theorem advanceFrame_colorModel (tag : Word32) (len : Nat) (s : State) : (advanceFrame tag len s).colorModel = s.colorModel := rfl
@[simp] theorem advanceFrame_interlace (tag : Word32) (len : Nat) (s : State) : (advanceFrame tag len s).interlace = s.interlace := rfl
@[simp] theorem advanceFrame_hdrSeen (tag : Word32) (len : Nat) (s : State) : (advanceFrame tag len s).hdrSeen = s.hdrSeen := rfl
@[simp] theorem advanceFrame_palSeen (tag : Word32) (len : Nat) (s : State) : (advanceFrame tag len s).palSeen = s.palSeen := rfl
@[simp] theorem advanceFrame_bkgdSeen (tag : Word32) (len : Nat) (s : State) : (advanceFrame tag len s).bkgdSeen = s.bkgdSeen := rfl
@[simp] theorem advanceFrame_dataSeen (tag : Word32) (len : Nat) (s : State) : (advanceFrame tag len s).dataSeen = s.dataSeen := rfl
@[simp] theorem advanceFrame_trnsSeen (tag : Word32) (len : Nat) (s : State) : (advanceFrame tag len s).trnsSeen = s.trnsSeen := rfl
@[simp] theorem advanceFrame_endSeen (tag : Word32) (len : Nat) (s : State) : (advanceFrame tag len s).endSeen = s.endSeen := rfl
@[simp] theorem advanceFrame_pal (tag : Word32) (len : Nat) (s : State) : (advanceFrame tag len s).pal = s.pal := rfl
@[simp] theorem advanceFrame_trnsKind (tag : Word32) (len : Nat) (s : State) : (advanceFrame tag len s).trnsKind = s.trnsKind := rfl
@[simp] theorem advanceFrame_trnsAlpha (tag : Word32) (len : Nat) (s : State) : (advanceFrame tag len s).trnsAlpha = s.trnsAlpha := rfl
@[simp] theorem advanceFrame_trnsGrey (tag : Word32) (len : Nat) (s : State) : (advanceFrame tag len s).trnsGrey = s.trnsGrey := rfl
@[simp] theorem advanceFrame_trnsR (tag : Word32) (len : Nat) (s : State) : (advanceFrame tag len s).trnsR = s.trnsR := rfl
@[simp] theorem advanceFrame_trnsG (tag : Word32) (len : Nat) (s : State) : (advanceFrame tag len s).trnsG = s.trnsG := rfl
@[simp] theorem advanceFrame_trnsB (tag : Word32) (len : Nat) (s : State) : (advanceFrame tag len s).trnsB = s.trnsB := rfl
@[simp] theorem advanceFrame_bkgdKind (tag : Word32) (len : Nat) (s : State) : (advanceFrame tag len s).bkgdKind = s.bkgdKind := rfl
@[simp] theorem advanceFrame_bkgdIndex (tag : Word32) (len : Nat) (s : State) : (advanceFrame tag len s).bkgdIndex = s.bkgdIndex := rfl
@[simp] theorem advanceFrame_bkgdGrey (tag : Word32) (len : Nat) (s : State) : (advanceFrame tag len s).bkgdGrey = s.bkgdGrey := rfl
@[simp] theorem advanceFrame_bkgdR (tag : Word32) (len : Nat) (s : State) : (advanceFrame tag len s).bkgdR = s.bkgdR := rfl
@[simp] theorem advanceFrame_bkgdG (tag : Word32) (len : Nat) (s : State) : (advanceFrame tag len s).bkgdG = s.bkgdG := rfl
@[simp] theorem advanceFrame_bkgdB (tag : Word32) (len : Nat) (s : State) : (advanceFrame tag len s).bkgdB = s.bkgdB := rfl
@[simp] theorem advanceFrame_zlen (tag : Word32) (len : Nat) (s : State) : (advanceFrame tag len s).zlen = s.zlen := rfl
@[simp] theorem advanceFrame_bpp (tag : Word32) (len : Nat) (s : State) : (advanceFrame tag len s).bpp = s.bpp := rfl
@[simp] theorem advanceFrame_rowbytes (tag : Word32) (len : Nat) (s : State) : (advanceFrame tag len s).rowbytes = s.rowbytes := rfl
@[simp] theorem advanceFrame_fLen (tag : Word32) (len : Nat) (s : State) : (advanceFrame tag len s).fLen = s.fLen := rfl
@[simp] theorem advanceFrame_dfRow (tag : Word32) (len : Nat) (s : State) : (advanceFrame tag len s).dfRow = s.dfRow := rfl
@[simp] theorem advanceFrame_dfCol (tag : Word32) (len : Nat) (s : State) : (advanceFrame tag len s).dfCol = s.dfCol := rfl
@[simp] theorem advanceFrame_dfFtype (tag : Word32) (len : Nat) (s : State) : (advanceFrame tag len s).dfFtype = s.dfFtype := rfl
@[simp] theorem advanceFrame_dfFpos (tag : Word32) (len : Nat) (s : State) : (advanceFrame tag len s).dfFpos = s.dfFpos := rfl
@[simp] theorem advanceFrame_dfOpos (tag : Word32) (len : Nat) (s : State) : (advanceFrame tag len s).dfOpos = s.dfOpos := rfl
@[simp] theorem advanceFrame_dfX (tag : Word32) (len : Nat) (s : State) : (advanceFrame tag len s).dfX = s.dfX := rfl
@[simp] theorem advanceFrame_dfA (tag : Word32) (len : Nat) (s : State) : (advanceFrame tag len s).dfA = s.dfA := rfl
@[simp] theorem advanceFrame_dfB (tag : Word32) (len : Nat) (s : State) : (advanceFrame tag len s).dfB = s.dfB := rfl
@[simp] theorem advanceFrame_dfC (tag : Word32) (len : Nat) (s : State) : (advanceFrame tag len s).dfC = s.dfC := rfl
@[simp] theorem advanceFrame_dfPr (tag : Word32) (len : Nat) (s : State) : (advanceFrame tag len s).dfPr = s.dfPr := rfl
@[simp] theorem advanceFrame_dfP (tag : Word32) (len : Nat) (s : State) : (advanceFrame tag len s).dfP = s.dfP := rfl
@[simp] theorem advanceFrame_dfPa (tag : Word32) (len : Nat) (s : State) : (advanceFrame tag len s).dfPa = s.dfPa := rfl
@[simp] theorem advanceFrame_dfPb (tag : Word32) (len : Nat) (s : State) : (advanceFrame tag len s).dfPb = s.dfPb := rfl
@[simp] theorem advanceFrame_dfPc (tag : Word32) (len : Nat) (s : State) : (advanceFrame tag len s).dfPc = s.dfPc := rfl
@[simp] theorem advanceFrame_errKind (tag : Word32) (len : Nat) (s : State) : (advanceFrame tag len s).errKind = s.errKind := rfl
@[simp] theorem advanceFrame_errCause (tag : Word32) (len : Nat) (s : State) : (advanceFrame tag len s).errCause = s.errCause := rfl
@[simp] theorem advanceFrame_errTag (tag : Word32) (len : Nat) (s : State) : (advanceFrame tag len s).errTag = s.errTag := rfl
@[simp] theorem advanceFrame_errPos (tag : Word32) (len : Nat) (s : State) : (advanceFrame tag len s).errPos = s.errPos := rfl
@[simp] theorem advanceFrame_excessReject (tag : Word32) (len : Nat) (s : State) : (advanceFrame tag len s).excessReject = s.excessReject := rfl
@[simp] theorem advanceFrame_inLen (tag : Word32) (len : Nat) (s : State) : (advanceFrame tag len s).inLen = s.inLen := rfl
@[simp] theorem advanceFrame_oLen (tag : Word32) (len : Nat) (s : State) : (advanceFrame tag len s).oLen = s.oLen := rfl
@[simp] theorem advanceFrame_inMem (tag : Word32) (len : Nat) (s : State) : (advanceFrame tag len s).inMem = s.inMem := rfl
@[simp] theorem advanceFrame_zbuf (tag : Word32) (len : Nat) (s : State) : (advanceFrame tag len s).zbuf = s.zbuf := rfl
@[simp] theorem advanceFrame_fbuf (tag : Word32) (len : Nat) (s : State) : (advanceFrame tag len s).fbuf = s.fbuf := rfl
@[simp] theorem advanceFrame_obuf (tag : Word32) (len : Nat) (s : State) : (advanceFrame tag len s).obuf = s.obuf := rfl
@[simp] theorem advanceFrame_host (tag : Word32) (len : Nat) (s : State) : (advanceFrame tag len s).host = s.host := rfl

/-! ## `deriveRow` -/

@[simp] theorem deriveRow_phase (s : State) : (deriveRow s).phase = s.phase := rfl
@[simp] theorem deriveRow_cmdLatch (s : State) : (deriveRow s).cmdLatch = s.cmdLatch := rfl
@[simp] theorem deriveRow_feCursor (s : State) : (deriveRow s).feCursor = s.feCursor := rfl
@[simp] theorem deriveRow_feLen (s : State) : (deriveRow s).feLen = s.feLen := rfl
@[simp] theorem deriveRow_feTag (s : State) : (deriveRow s).feTag = s.feTag := rfl
@[simp] theorem deriveRow_width (s : State) : (deriveRow s).width = s.width := rfl
@[simp] theorem deriveRow_height (s : State) : (deriveRow s).height = s.height := rfl
@[simp] theorem deriveRow_bitDepth (s : State) : (deriveRow s).bitDepth = s.bitDepth := rfl
@[simp] theorem deriveRow_colorModel (s : State) : (deriveRow s).colorModel = s.colorModel := rfl
@[simp] theorem deriveRow_interlace (s : State) : (deriveRow s).interlace = s.interlace := rfl
@[simp] theorem deriveRow_hdrSeen (s : State) : (deriveRow s).hdrSeen = s.hdrSeen := rfl
@[simp] theorem deriveRow_palSeen (s : State) : (deriveRow s).palSeen = s.palSeen := rfl
@[simp] theorem deriveRow_bkgdSeen (s : State) : (deriveRow s).bkgdSeen = s.bkgdSeen := rfl
@[simp] theorem deriveRow_dataSeen (s : State) : (deriveRow s).dataSeen = s.dataSeen := rfl
@[simp] theorem deriveRow_trnsSeen (s : State) : (deriveRow s).trnsSeen = s.trnsSeen := rfl
@[simp] theorem deriveRow_endSeen (s : State) : (deriveRow s).endSeen = s.endSeen := rfl
@[simp] theorem deriveRow_pal (s : State) : (deriveRow s).pal = s.pal := rfl
@[simp] theorem deriveRow_trnsKind (s : State) : (deriveRow s).trnsKind = s.trnsKind := rfl
@[simp] theorem deriveRow_trnsAlpha (s : State) : (deriveRow s).trnsAlpha = s.trnsAlpha := rfl
@[simp] theorem deriveRow_trnsGrey (s : State) : (deriveRow s).trnsGrey = s.trnsGrey := rfl
@[simp] theorem deriveRow_trnsR (s : State) : (deriveRow s).trnsR = s.trnsR := rfl
@[simp] theorem deriveRow_trnsG (s : State) : (deriveRow s).trnsG = s.trnsG := rfl
@[simp] theorem deriveRow_trnsB (s : State) : (deriveRow s).trnsB = s.trnsB := rfl
@[simp] theorem deriveRow_bkgdKind (s : State) : (deriveRow s).bkgdKind = s.bkgdKind := rfl
@[simp] theorem deriveRow_bkgdIndex (s : State) : (deriveRow s).bkgdIndex = s.bkgdIndex := rfl
@[simp] theorem deriveRow_bkgdGrey (s : State) : (deriveRow s).bkgdGrey = s.bkgdGrey := rfl
@[simp] theorem deriveRow_bkgdR (s : State) : (deriveRow s).bkgdR = s.bkgdR := rfl
@[simp] theorem deriveRow_bkgdG (s : State) : (deriveRow s).bkgdG = s.bkgdG := rfl
@[simp] theorem deriveRow_bkgdB (s : State) : (deriveRow s).bkgdB = s.bkgdB := rfl
@[simp] theorem deriveRow_zlen (s : State) : (deriveRow s).zlen = s.zlen := rfl
@[simp] theorem deriveRow_bpp (s : State) : (deriveRow s).bpp = BitVec.ofNat 4 (max 1 (s.bitsPerPixel / 8)) := rfl
@[simp] theorem deriveRow_rowbytes (s : State) : (deriveRow s).rowbytes = BitVec.ofNat 64 ((s.width.toNat * s.bitsPerPixel + 7) / 8) := rfl
@[simp] theorem deriveRow_fLen (s : State) : (deriveRow s).fLen = s.fLen := rfl
@[simp] theorem deriveRow_dfRow (s : State) : (deriveRow s).dfRow = s.dfRow := rfl
@[simp] theorem deriveRow_dfCol (s : State) : (deriveRow s).dfCol = s.dfCol := rfl
@[simp] theorem deriveRow_dfFtype (s : State) : (deriveRow s).dfFtype = s.dfFtype := rfl
@[simp] theorem deriveRow_dfFpos (s : State) : (deriveRow s).dfFpos = s.dfFpos := rfl
@[simp] theorem deriveRow_dfOpos (s : State) : (deriveRow s).dfOpos = s.dfOpos := rfl
@[simp] theorem deriveRow_dfX (s : State) : (deriveRow s).dfX = s.dfX := rfl
@[simp] theorem deriveRow_dfA (s : State) : (deriveRow s).dfA = s.dfA := rfl
@[simp] theorem deriveRow_dfB (s : State) : (deriveRow s).dfB = s.dfB := rfl
@[simp] theorem deriveRow_dfC (s : State) : (deriveRow s).dfC = s.dfC := rfl
@[simp] theorem deriveRow_dfPr (s : State) : (deriveRow s).dfPr = s.dfPr := rfl
@[simp] theorem deriveRow_dfP (s : State) : (deriveRow s).dfP = s.dfP := rfl
@[simp] theorem deriveRow_dfPa (s : State) : (deriveRow s).dfPa = s.dfPa := rfl
@[simp] theorem deriveRow_dfPb (s : State) : (deriveRow s).dfPb = s.dfPb := rfl
@[simp] theorem deriveRow_dfPc (s : State) : (deriveRow s).dfPc = s.dfPc := rfl
@[simp] theorem deriveRow_errKind (s : State) : (deriveRow s).errKind = s.errKind := rfl
@[simp] theorem deriveRow_errCause (s : State) : (deriveRow s).errCause = s.errCause := rfl
@[simp] theorem deriveRow_errTag (s : State) : (deriveRow s).errTag = s.errTag := rfl
@[simp] theorem deriveRow_errPos (s : State) : (deriveRow s).errPos = s.errPos := rfl
@[simp] theorem deriveRow_excessReject (s : State) : (deriveRow s).excessReject = s.excessReject := rfl
@[simp] theorem deriveRow_inLen (s : State) : (deriveRow s).inLen = s.inLen := rfl
@[simp] theorem deriveRow_oLen (s : State) : (deriveRow s).oLen = s.oLen := rfl
@[simp] theorem deriveRow_inMem (s : State) : (deriveRow s).inMem = s.inMem := rfl
@[simp] theorem deriveRow_zbuf (s : State) : (deriveRow s).zbuf = s.zbuf := rfl
@[simp] theorem deriveRow_fbuf (s : State) : (deriveRow s).fbuf = s.fbuf := rfl
@[simp] theorem deriveRow_obuf (s : State) : (deriveRow s).obuf = s.obuf := rfl
@[simp] theorem deriveRow_host (s : State) : (deriveRow s).host = s.host := rfl

/-! ## `latchPaeth` -/

@[simp] theorem latchPaeth_phase (n : Neighbours) (s : State) : (latchPaeth n s).phase = s.phase := rfl
@[simp] theorem latchPaeth_cmdLatch (n : Neighbours) (s : State) : (latchPaeth n s).cmdLatch = s.cmdLatch := rfl
@[simp] theorem latchPaeth_feCursor (n : Neighbours) (s : State) : (latchPaeth n s).feCursor = s.feCursor := rfl
@[simp] theorem latchPaeth_feLen (n : Neighbours) (s : State) : (latchPaeth n s).feLen = s.feLen := rfl
@[simp] theorem latchPaeth_feTag (n : Neighbours) (s : State) : (latchPaeth n s).feTag = s.feTag := rfl
@[simp] theorem latchPaeth_width (n : Neighbours) (s : State) : (latchPaeth n s).width = s.width := rfl
@[simp] theorem latchPaeth_height (n : Neighbours) (s : State) : (latchPaeth n s).height = s.height := rfl
@[simp] theorem latchPaeth_bitDepth (n : Neighbours) (s : State) : (latchPaeth n s).bitDepth = s.bitDepth := rfl
@[simp] theorem latchPaeth_colorModel (n : Neighbours) (s : State) : (latchPaeth n s).colorModel = s.colorModel := rfl
@[simp] theorem latchPaeth_interlace (n : Neighbours) (s : State) : (latchPaeth n s).interlace = s.interlace := rfl
@[simp] theorem latchPaeth_hdrSeen (n : Neighbours) (s : State) : (latchPaeth n s).hdrSeen = s.hdrSeen := rfl
@[simp] theorem latchPaeth_palSeen (n : Neighbours) (s : State) : (latchPaeth n s).palSeen = s.palSeen := rfl
@[simp] theorem latchPaeth_bkgdSeen (n : Neighbours) (s : State) : (latchPaeth n s).bkgdSeen = s.bkgdSeen := rfl
@[simp] theorem latchPaeth_dataSeen (n : Neighbours) (s : State) : (latchPaeth n s).dataSeen = s.dataSeen := rfl
@[simp] theorem latchPaeth_trnsSeen (n : Neighbours) (s : State) : (latchPaeth n s).trnsSeen = s.trnsSeen := rfl
@[simp] theorem latchPaeth_endSeen (n : Neighbours) (s : State) : (latchPaeth n s).endSeen = s.endSeen := rfl
@[simp] theorem latchPaeth_pal (n : Neighbours) (s : State) : (latchPaeth n s).pal = s.pal := rfl
@[simp] theorem latchPaeth_trnsKind (n : Neighbours) (s : State) : (latchPaeth n s).trnsKind = s.trnsKind := rfl
@[simp] theorem latchPaeth_trnsAlpha (n : Neighbours) (s : State) : (latchPaeth n s).trnsAlpha = s.trnsAlpha := rfl
@[simp] theorem latchPaeth_trnsGrey (n : Neighbours) (s : State) : (latchPaeth n s).trnsGrey = s.trnsGrey := rfl
@[simp] theorem latchPaeth_trnsR (n : Neighbours) (s : State) : (latchPaeth n s).trnsR = s.trnsR := rfl
@[simp] theorem latchPaeth_trnsG (n : Neighbours) (s : State) : (latchPaeth n s).trnsG = s.trnsG := rfl
@[simp] theorem latchPaeth_trnsB (n : Neighbours) (s : State) : (latchPaeth n s).trnsB = s.trnsB := rfl
@[simp] theorem latchPaeth_bkgdKind (n : Neighbours) (s : State) : (latchPaeth n s).bkgdKind = s.bkgdKind := rfl
@[simp] theorem latchPaeth_bkgdIndex (n : Neighbours) (s : State) : (latchPaeth n s).bkgdIndex = s.bkgdIndex := rfl
@[simp] theorem latchPaeth_bkgdGrey (n : Neighbours) (s : State) : (latchPaeth n s).bkgdGrey = s.bkgdGrey := rfl
@[simp] theorem latchPaeth_bkgdR (n : Neighbours) (s : State) : (latchPaeth n s).bkgdR = s.bkgdR := rfl
@[simp] theorem latchPaeth_bkgdG (n : Neighbours) (s : State) : (latchPaeth n s).bkgdG = s.bkgdG := rfl
@[simp] theorem latchPaeth_bkgdB (n : Neighbours) (s : State) : (latchPaeth n s).bkgdB = s.bkgdB := rfl
@[simp] theorem latchPaeth_zlen (n : Neighbours) (s : State) : (latchPaeth n s).zlen = s.zlen := rfl
@[simp] theorem latchPaeth_bpp (n : Neighbours) (s : State) : (latchPaeth n s).bpp = s.bpp := rfl
@[simp] theorem latchPaeth_rowbytes (n : Neighbours) (s : State) : (latchPaeth n s).rowbytes = s.rowbytes := rfl
@[simp] theorem latchPaeth_fLen (n : Neighbours) (s : State) : (latchPaeth n s).fLen = s.fLen := rfl
@[simp] theorem latchPaeth_dfRow (n : Neighbours) (s : State) : (latchPaeth n s).dfRow = s.dfRow := rfl
@[simp] theorem latchPaeth_dfCol (n : Neighbours) (s : State) : (latchPaeth n s).dfCol = s.dfCol := rfl
@[simp] theorem latchPaeth_dfFtype (n : Neighbours) (s : State) : (latchPaeth n s).dfFtype = s.dfFtype := rfl
@[simp] theorem latchPaeth_dfFpos (n : Neighbours) (s : State) : (latchPaeth n s).dfFpos = s.dfFpos := rfl
@[simp] theorem latchPaeth_dfOpos (n : Neighbours) (s : State) : (latchPaeth n s).dfOpos = s.dfOpos := rfl
@[simp] theorem latchPaeth_dfX (n : Neighbours) (s : State) : (latchPaeth n s).dfX = s.dfX := rfl
@[simp] theorem latchPaeth_dfA (n : Neighbours) (s : State) : (latchPaeth n s).dfA = s.dfA := rfl
@[simp] theorem latchPaeth_dfB (n : Neighbours) (s : State) : (latchPaeth n s).dfB = s.dfB := rfl
@[simp] theorem latchPaeth_dfC (n : Neighbours) (s : State) : (latchPaeth n s).dfC = s.dfC := rfl
@[simp] theorem latchPaeth_dfPr (n : Neighbours) (s : State) : (latchPaeth n s).dfPr = s.dfPr := rfl
@[simp] theorem latchPaeth_dfP (n : Neighbours) (s : State) : (latchPaeth n s).dfP = paethP n.a n.b n.c := rfl
@[simp] theorem latchPaeth_dfPa (n : Neighbours) (s : State) : (latchPaeth n s).dfPa = paethDist n.a n.b n.c n.a := rfl
@[simp] theorem latchPaeth_dfPb (n : Neighbours) (s : State) : (latchPaeth n s).dfPb = paethDist n.a n.b n.c n.b := rfl
@[simp] theorem latchPaeth_dfPc (n : Neighbours) (s : State) : (latchPaeth n s).dfPc = paethDist n.a n.b n.c n.c := rfl
@[simp] theorem latchPaeth_errKind (n : Neighbours) (s : State) : (latchPaeth n s).errKind = s.errKind := rfl
@[simp] theorem latchPaeth_errCause (n : Neighbours) (s : State) : (latchPaeth n s).errCause = s.errCause := rfl
@[simp] theorem latchPaeth_errTag (n : Neighbours) (s : State) : (latchPaeth n s).errTag = s.errTag := rfl
@[simp] theorem latchPaeth_errPos (n : Neighbours) (s : State) : (latchPaeth n s).errPos = s.errPos := rfl
@[simp] theorem latchPaeth_excessReject (n : Neighbours) (s : State) : (latchPaeth n s).excessReject = s.excessReject := rfl
@[simp] theorem latchPaeth_inLen (n : Neighbours) (s : State) : (latchPaeth n s).inLen = s.inLen := rfl
@[simp] theorem latchPaeth_oLen (n : Neighbours) (s : State) : (latchPaeth n s).oLen = s.oLen := rfl
@[simp] theorem latchPaeth_inMem (n : Neighbours) (s : State) : (latchPaeth n s).inMem = s.inMem := rfl
@[simp] theorem latchPaeth_zbuf (n : Neighbours) (s : State) : (latchPaeth n s).zbuf = s.zbuf := rfl
@[simp] theorem latchPaeth_fbuf (n : Neighbours) (s : State) : (latchPaeth n s).fbuf = s.fbuf := rfl
@[simp] theorem latchPaeth_obuf (n : Neighbours) (s : State) : (latchPaeth n s).obuf = s.obuf := rfl
@[simp] theorem latchPaeth_host (n : Neighbours) (s : State) : (latchPaeth n s).host = s.host := rfl

/-! ## `runInitKeep` -/

@[simp] theorem runInitKeep_phase (s : State) : (runInitKeep s).phase = s.phase := rfl
@[simp] theorem runInitKeep_cmdLatch (s : State) : (runInitKeep s).cmdLatch = s.cmdLatch := rfl
@[simp] theorem runInitKeep_feCursor (s : State) : (runInitKeep s).feCursor = 0 := rfl
@[simp] theorem runInitKeep_feLen (s : State) : (runInitKeep s).feLen = s.feLen := rfl
@[simp] theorem runInitKeep_feTag (s : State) : (runInitKeep s).feTag = s.feTag := rfl
@[simp] theorem runInitKeep_width (s : State) : (runInitKeep s).width = 0 := rfl
@[simp] theorem runInitKeep_height (s : State) : (runInitKeep s).height = s.height := rfl
@[simp] theorem runInitKeep_bitDepth (s : State) : (runInitKeep s).bitDepth = 0 := rfl
@[simp] theorem runInitKeep_colorModel (s : State) : (runInitKeep s).colorModel = .greyscale := rfl
@[simp] theorem runInitKeep_interlace (s : State) : (runInitKeep s).interlace = false := rfl
@[simp] theorem runInitKeep_hdrSeen (s : State) : (runInitKeep s).hdrSeen = false := rfl
@[simp] theorem runInitKeep_palSeen (s : State) : (runInitKeep s).palSeen = false := rfl
@[simp] theorem runInitKeep_bkgdSeen (s : State) : (runInitKeep s).bkgdSeen = false := rfl
@[simp] theorem runInitKeep_dataSeen (s : State) : (runInitKeep s).dataSeen = false := rfl
@[simp] theorem runInitKeep_trnsSeen (s : State) : (runInitKeep s).trnsSeen = false := rfl
@[simp] theorem runInitKeep_endSeen (s : State) : (runInitKeep s).endSeen = false := rfl
@[simp] theorem runInitKeep_pal (s : State) : (runInitKeep s).pal = [] := rfl
@[simp] theorem runInitKeep_trnsKind (s : State) : (runInitKeep s).trnsKind = .absent := rfl
@[simp] theorem runInitKeep_trnsAlpha (s : State) : (runInitKeep s).trnsAlpha = [] := rfl
@[simp] theorem runInitKeep_trnsGrey (s : State) : (runInitKeep s).trnsGrey = 0 := rfl
@[simp] theorem runInitKeep_trnsR (s : State) : (runInitKeep s).trnsR = 0 := rfl
@[simp] theorem runInitKeep_trnsG (s : State) : (runInitKeep s).trnsG = 0 := rfl
@[simp] theorem runInitKeep_trnsB (s : State) : (runInitKeep s).trnsB = 0 := rfl
@[simp] theorem runInitKeep_bkgdKind (s : State) : (runInitKeep s).bkgdKind = .absent := rfl
@[simp] theorem runInitKeep_bkgdIndex (s : State) : (runInitKeep s).bkgdIndex = 0 := rfl
@[simp] theorem runInitKeep_bkgdGrey (s : State) : (runInitKeep s).bkgdGrey = 0 := rfl
@[simp] theorem runInitKeep_bkgdR (s : State) : (runInitKeep s).bkgdR = 0 := rfl
@[simp] theorem runInitKeep_bkgdG (s : State) : (runInitKeep s).bkgdG = 0 := rfl
@[simp] theorem runInitKeep_bkgdB (s : State) : (runInitKeep s).bkgdB = 0 := rfl
@[simp] theorem runInitKeep_zlen (s : State) : (runInitKeep s).zlen = 0 := rfl
@[simp] theorem runInitKeep_bpp (s : State) : (runInitKeep s).bpp = s.bpp := rfl
@[simp] theorem runInitKeep_rowbytes (s : State) : (runInitKeep s).rowbytes = s.rowbytes := rfl
@[simp] theorem runInitKeep_fLen (s : State) : (runInitKeep s).fLen = s.fLen := rfl
@[simp] theorem runInitKeep_dfRow (s : State) : (runInitKeep s).dfRow = 0 := rfl
@[simp] theorem runInitKeep_dfCol (s : State) : (runInitKeep s).dfCol = 0 := rfl
@[simp] theorem runInitKeep_dfFtype (s : State) : (runInitKeep s).dfFtype = .noFilter := rfl
@[simp] theorem runInitKeep_dfFpos (s : State) : (runInitKeep s).dfFpos = 0 := rfl
@[simp] theorem runInitKeep_dfOpos (s : State) : (runInitKeep s).dfOpos = 0 := rfl
@[simp] theorem runInitKeep_dfX (s : State) : (runInitKeep s).dfX = s.dfX := rfl
@[simp] theorem runInitKeep_dfA (s : State) : (runInitKeep s).dfA = s.dfA := rfl
@[simp] theorem runInitKeep_dfB (s : State) : (runInitKeep s).dfB = s.dfB := rfl
@[simp] theorem runInitKeep_dfC (s : State) : (runInitKeep s).dfC = s.dfC := rfl
@[simp] theorem runInitKeep_dfPr (s : State) : (runInitKeep s).dfPr = s.dfPr := rfl
@[simp] theorem runInitKeep_dfP (s : State) : (runInitKeep s).dfP = s.dfP := rfl
@[simp] theorem runInitKeep_dfPa (s : State) : (runInitKeep s).dfPa = s.dfPa := rfl
@[simp] theorem runInitKeep_dfPb (s : State) : (runInitKeep s).dfPb = s.dfPb := rfl
@[simp] theorem runInitKeep_dfPc (s : State) : (runInitKeep s).dfPc = s.dfPc := rfl
@[simp] theorem runInitKeep_errKind (s : State) : (runInitKeep s).errKind = .noError := rfl
@[simp] theorem runInitKeep_errCause (s : State) : (runInitKeep s).errCause = 0 := rfl
@[simp] theorem runInitKeep_errTag (s : State) : (runInitKeep s).errTag = 0 := rfl
@[simp] theorem runInitKeep_errPos (s : State) : (runInitKeep s).errPos = 0 := rfl
@[simp] theorem runInitKeep_excessReject (s : State) : (runInitKeep s).excessReject = s.excessReject := rfl
@[simp] theorem runInitKeep_inLen (s : State) : (runInitKeep s).inLen = s.inLen := rfl
@[simp] theorem runInitKeep_oLen (s : State) : (runInitKeep s).oLen = s.oLen := rfl
@[simp] theorem runInitKeep_inMem (s : State) : (runInitKeep s).inMem = s.inMem := rfl
@[simp] theorem runInitKeep_zbuf (s : State) : (runInitKeep s).zbuf = s.zbuf := rfl
@[simp] theorem runInitKeep_fbuf (s : State) : (runInitKeep s).fbuf = s.fbuf := rfl
@[simp] theorem runInitKeep_obuf (s : State) : (runInitKeep s).obuf = s.obuf := rfl
@[simp] theorem runInitKeep_host (s : State) : (runInitKeep s).host = s.host := rfl

/-! ## `runInit` -/

@[simp] theorem runInit_phase (s : State) : (runInit s).phase = s.phase := rfl
@[simp] theorem runInit_cmdLatch (s : State) : (runInit s).cmdLatch = s.cmdLatch := rfl
@[simp] theorem runInit_feCursor (s : State) : (runInit s).feCursor = 0 := rfl
@[simp] theorem runInit_feLen (s : State) : (runInit s).feLen = s.feLen := rfl
@[simp] theorem runInit_feTag (s : State) : (runInit s).feTag = s.feTag := rfl
@[simp] theorem runInit_width (s : State) : (runInit s).width = 0 := rfl
@[simp] theorem runInit_height (s : State) : (runInit s).height = 0 := rfl
@[simp] theorem runInit_bitDepth (s : State) : (runInit s).bitDepth = 0 := rfl
@[simp] theorem runInit_colorModel (s : State) : (runInit s).colorModel = .greyscale := rfl
@[simp] theorem runInit_interlace (s : State) : (runInit s).interlace = false := rfl
@[simp] theorem runInit_hdrSeen (s : State) : (runInit s).hdrSeen = false := rfl
@[simp] theorem runInit_palSeen (s : State) : (runInit s).palSeen = false := rfl
@[simp] theorem runInit_bkgdSeen (s : State) : (runInit s).bkgdSeen = false := rfl
@[simp] theorem runInit_dataSeen (s : State) : (runInit s).dataSeen = false := rfl
@[simp] theorem runInit_trnsSeen (s : State) : (runInit s).trnsSeen = false := rfl
@[simp] theorem runInit_endSeen (s : State) : (runInit s).endSeen = false := rfl
@[simp] theorem runInit_pal (s : State) : (runInit s).pal = [] := rfl
@[simp] theorem runInit_trnsKind (s : State) : (runInit s).trnsKind = .absent := rfl
@[simp] theorem runInit_trnsAlpha (s : State) : (runInit s).trnsAlpha = [] := rfl
@[simp] theorem runInit_trnsGrey (s : State) : (runInit s).trnsGrey = 0 := rfl
@[simp] theorem runInit_trnsR (s : State) : (runInit s).trnsR = 0 := rfl
@[simp] theorem runInit_trnsG (s : State) : (runInit s).trnsG = 0 := rfl
@[simp] theorem runInit_trnsB (s : State) : (runInit s).trnsB = 0 := rfl
@[simp] theorem runInit_bkgdKind (s : State) : (runInit s).bkgdKind = .absent := rfl
@[simp] theorem runInit_bkgdIndex (s : State) : (runInit s).bkgdIndex = 0 := rfl
@[simp] theorem runInit_bkgdGrey (s : State) : (runInit s).bkgdGrey = 0 := rfl
@[simp] theorem runInit_bkgdR (s : State) : (runInit s).bkgdR = 0 := rfl
@[simp] theorem runInit_bkgdG (s : State) : (runInit s).bkgdG = 0 := rfl
@[simp] theorem runInit_bkgdB (s : State) : (runInit s).bkgdB = 0 := rfl
@[simp] theorem runInit_zlen (s : State) : (runInit s).zlen = 0 := rfl
@[simp] theorem runInit_bpp (s : State) : (runInit s).bpp = 0 := rfl
@[simp] theorem runInit_rowbytes (s : State) : (runInit s).rowbytes = 0 := rfl
@[simp] theorem runInit_fLen (s : State) : (runInit s).fLen = 0 := rfl
@[simp] theorem runInit_dfRow (s : State) : (runInit s).dfRow = 0 := rfl
@[simp] theorem runInit_dfCol (s : State) : (runInit s).dfCol = 0 := rfl
@[simp] theorem runInit_dfFtype (s : State) : (runInit s).dfFtype = .noFilter := rfl
@[simp] theorem runInit_dfFpos (s : State) : (runInit s).dfFpos = 0 := rfl
@[simp] theorem runInit_dfOpos (s : State) : (runInit s).dfOpos = 0 := rfl
@[simp] theorem runInit_dfX (s : State) : (runInit s).dfX = s.dfX := rfl
@[simp] theorem runInit_dfA (s : State) : (runInit s).dfA = s.dfA := rfl
@[simp] theorem runInit_dfB (s : State) : (runInit s).dfB = s.dfB := rfl
@[simp] theorem runInit_dfC (s : State) : (runInit s).dfC = s.dfC := rfl
@[simp] theorem runInit_dfPr (s : State) : (runInit s).dfPr = s.dfPr := rfl
@[simp] theorem runInit_dfP (s : State) : (runInit s).dfP = s.dfP := rfl
@[simp] theorem runInit_dfPa (s : State) : (runInit s).dfPa = s.dfPa := rfl
@[simp] theorem runInit_dfPb (s : State) : (runInit s).dfPb = s.dfPb := rfl
@[simp] theorem runInit_dfPc (s : State) : (runInit s).dfPc = s.dfPc := rfl
@[simp] theorem runInit_errKind (s : State) : (runInit s).errKind = .noError := rfl
@[simp] theorem runInit_errCause (s : State) : (runInit s).errCause = 0 := rfl
@[simp] theorem runInit_errTag (s : State) : (runInit s).errTag = 0 := rfl
@[simp] theorem runInit_errPos (s : State) : (runInit s).errPos = 0 := rfl
@[simp] theorem runInit_excessReject (s : State) : (runInit s).excessReject = s.excessReject := rfl
@[simp] theorem runInit_inLen (s : State) : (runInit s).inLen = s.inLen := rfl
@[simp] theorem runInit_oLen (s : State) : (runInit s).oLen = s.oLen := rfl
@[simp] theorem runInit_inMem (s : State) : (runInit s).inMem = s.inMem := rfl
@[simp] theorem runInit_zbuf (s : State) : (runInit s).zbuf = s.zbuf := rfl
@[simp] theorem runInit_fbuf (s : State) : (runInit s).fbuf = s.fbuf := rfl
@[simp] theorem runInit_obuf (s : State) : (runInit s).obuf = s.obuf := rfl
@[simp] theorem runInit_host (s : State) : (runInit s).host = s.host := rfl

end Sys2Proof.Machine
end

