-- ==== Sys2Proof/Laws/Operations.lean ====
section
/-! SUPPORT. What each shared operation can do, said once: the chunk decoders, the assembler, the chunk step, the fetches,
the final pass, the Inflate call, the scanline step, the commands, one step of the block. -/

namespace Sys2Proof.Machine

/-! ## Decoders -/

/-- The decoder a chunk instruction runs (41_chunk_decoders.md). -/
def decoderOf : Instr → List Byte → Except Cause ChunkRecord
  | .sig => fun _ => .ok .endOfImage
  | .ihdr _ => decodeIhdr
  | .plte _ => decodePlte
  | .idat _ => decodeIdat
  | .iend _ => decodeIend
  | .bkgd _ => decodeBkgd
  | .trns _ => decodeTrns
  | .chrm _ => decodeIgnorable .chrm
  | .gama _ => decodeIgnorable .gama
  | .hist _ => decodeIgnorable .hist
  | .phys _ => decodeIgnorable .phys
  | .sbit _ => decodeIgnorable .sbit
  | .text _ => decodeIgnorable .text
  | .time _ => decodeIgnorable .time
  | .ztxt _ => decodeIgnorable .ztxt
  | .rowNone => fun _ => .ok .endOfImage
  | .rowSub => fun _ => .ok .endOfImage
  | .rowUp => fun _ => .ok .endOfImage
  | .rowAvg => fun _ => .ok .endOfImage
  | .rowPaeth => fun _ => .ok .endOfImage

/-- Every chunk instruction is the shared chunk step with its tag and its decoder. -/
theorem exec_chunk {i : Instr} (h : i.format = .chunk) (s : State) :
    exec i s = chunkBody (i.tag32 Config.ztxtTag) (decoderOf i) i.payload s := by
  cases i <;> first | rfl | exact absurd h (by decide)

/-- The bytes that are no colour model (30_encoding.md R95). -/
theorem colorModelOfByte_none {b : Byte} : colorModelOfByte b = none ↔ b ∉ [0#8, 2#8, 3#8, 4#8, 6#8] := by
  revert b; decide

/-- A payload the decoder accepts becomes a record; only IHDR makes a header. -/
theorem decoderOf_ok {i : Instr} (h : payloadAccepted i = true) :
    i.format = .chunk ∧ ∃ r, decoderOf i i.payload = .ok r ∧ (r.isHeader = true ↔ ∃ p, i = .ihdr p) := by
  cases i
  case ihdr p =>
    simp only [payloadAccepted, Bool.and_eq_true, decide_eq_true_eq] at h
    obtain ⟨cm, hcm⟩ := Option.ne_none_iff_exists'.mp (fun hn => colorModelOfByte_none.mp hn h.2)
    refine ⟨rfl, .header (wordAt p 0) (wordAt p 4) (byteAt p 8) cm (decide (byteAt p 12 = 1#8)), ?_, by
      simp [ChunkRecord.isHeader]⟩
    simp only [decoderOf, Instr.payload, decodeIhdr, h.1, ne_eq, not_true, if_false, hcm]
    rfl
  case plte p =>
    simp only [payloadAccepted, decide_eq_true_eq] at h
    exact ⟨rfl, .palette (palEntries p), by simp [decoderOf, Instr.payload, decodePlte, h],
      by simp [ChunkRecord.isHeader]⟩
  case iend p =>
    simp only [payloadAccepted, decide_eq_true_eq] at h
    exact ⟨rfl, .endOfImage, by simp only [decoderOf, Instr.payload, decodeIend, h, ne_eq, not_true, if_false],
      by simp [ChunkRecord.isHeader]⟩
  case bkgd p =>
    simp only [payloadAccepted, decide_eq_true_eq, List.mem_cons, List.not_mem_nil, or_false] at h
    refine ⟨rfl, ?_⟩
    rcases h with h | h | h
    all_goals
      exact ⟨_, by simp only [decoderOf, Instr.payload, decodeBkgd, h]; rfl, by simp [ChunkRecord.isHeader]⟩
  all_goals first
    | exact absurd h (by decide)
    | exact ⟨rfl, _, rfl, by simp [ChunkRecord.isHeader]⟩

/-- A decoder's errors are format errors. -/
theorem decoderOf_error {i : Instr} {p : List Byte} {c : Cause} (h : decoderOf i p = .error c) :
    c.kind = .formatError := by
  cases i <;> simp only [decoderOf, decodeIhdr, decodePlte, decodeIdat, decodeIend, decodeBkgd, decodeTrns,
    decodeIgnorable] at h <;> (repeat' split at h) <;> cases h <;> rfl

theorem palEntries_length (p : List Byte) : 3 * (palEntries p).length ≤ p.length := by
  induction p using palEntries.induct with
  | case1 r g b rest ih => simp only [palEntries, List.length_cons]; omega
  | case2 p h =>
    rw [palEntries.eq_def]
    split
    · next r g b rest => exact absurd rfl (h r g b rest)
    · simp

/-- A palette record has an entry for every three bytes of its payload at most. -/
theorem decoderOf_palette {i : Instr} {p : List Byte} {es : List PalEntry} (h : decoderOf i p = .ok (.palette es)) :
    3 * es.length ≤ p.length := by
  cases i <;> simp only [decoderOf, decodeIhdr, decodePlte, decodeIdat, decodeIend, decodeBkgd, decodeTrns,
    decodeIgnorable] at h <;> (repeat' split at h) <;> cases h
  exact palEntries_length p

/-- An image data record holds its payload. -/
theorem decoderOf_imageData {i : Instr} {p bs : List Byte} (h : decoderOf i p = .ok (.imageData bs)) : bs = p := by
  cases i <;> simp only [decoderOf, decodeIhdr, decodePlte, decodeIdat, decodeIend, decodeBkgd, decodeTrns,
    decodeIgnorable] at h <;> (repeat' split at h) <;> cases h
  rfl

/-! ## The assembler -/

theorem transition_error {r : ChunkRecord} {s : State} {c : Cause} (h : transition r s = .error c) :
    c.kind = .formatError := by
  cases r <;> simp only [transition, headerRecord, paletteRecord, imageDataRecord, endRecord, backgroundRecord,
    transparencyRecord] at h <;> (repeat' split at h) <;> cases h <;> rfl

/-- The assembler's errors are format errors. -/
theorem assemble_error {r : ChunkRecord} {s : State} {c : Cause} (h : assemble r s = .error c) :
    c.kind = .formatError := by
  unfold assemble at h
  split at h
  · cases h; rfl
  · split at h
    · cases h; rfl
    · exact transition_error h

/-- What the gate lets through: a first header, or another record after a header. -/
theorem assemble_ok {r : ChunkRecord} {s t : State} (h : assemble r s = .ok t) :
    r.isHeader = !s.hdrSeen ∧ transition r s = .ok t := by
  unfold assemble at h
  split at h
  · cases h
  · split at h
    · cases h
    · next h1 h2 => cases hr : r.isHeader <;> cases hs : s.hdrSeen <;> simp_all

/-- What a transition may write, and nothing else (42_assembler.md R161 to R167). -/
theorem transition_frame {r : ChunkRecord} {s t : State} (h : transition r s = .ok t) :
    t = { s with
      width := t.width, height := t.height, bitDepth := t.bitDepth, colorModel := t.colorModel, interlace := t.interlace
      hdrSeen := t.hdrSeen, palSeen := t.palSeen, bkgdSeen := t.bkgdSeen, dataSeen := t.dataSeen, trnsSeen := t.trnsSeen
      endSeen := t.endSeen, pal := t.pal, trnsKind := t.trnsKind, trnsAlpha := t.trnsAlpha, trnsGrey := t.trnsGrey
      trnsR := t.trnsR, trnsG := t.trnsG, trnsB := t.trnsB, bkgdKind := t.bkgdKind, bkgdIndex := t.bkgdIndex
      bkgdGrey := t.bkgdGrey, bkgdR := t.bkgdR, bkgdG := t.bkgdG, bkgdB := t.bkgdB, zbuf := t.zbuf, zlen := t.zlen } := by
  cases r
  case background v =>
    simp only [transition, backgroundRecord] at h
    (repeat' split at h) <;> cases h
    cases v <;> rfl
  all_goals
    simp only [transition, headerRecord, paletteRecord, imageDataRecord, endRecord, transparencyRecord] at h
    (repeat' split at h) <;> cases h <;> rfl

/-- A flag, once set, stays set in a transition. -/
theorem transition_flags {r : ChunkRecord} {s t : State} (h : transition r s = .ok t) :
    (s.hdrSeen = true → t.hdrSeen = true) ∧ (s.palSeen = true → t.palSeen = true)
    ∧ (s.bkgdSeen = true → t.bkgdSeen = true) ∧ (s.dataSeen = true → t.dataSeen = true)
    ∧ (s.trnsSeen = true → t.trnsSeen = true) ∧ (s.endSeen = true → t.endSeen = true) := by
  cases r
  case background v =>
    simp only [transition, backgroundRecord] at h
    (repeat' split at h) <;> cases h
    cases v <;> simp [storeBackground]
  all_goals
    simp only [transition, headerRecord, paletteRecord, imageDataRecord, endRecord, transparencyRecord] at h
    (repeat' split at h) <;> cases h <;> simp

/-! ## The chunk step -/

/-- What the chunk step from the dispatch on can do: an error raised from the state before, or a completed step. -/
theorem chunkBody_cases (tag : Word32) (dec : List Byte → Except Cause ChunkRecord) (p : List Byte) (s : State) :
    (∃ c, ((∃ q, dec q = .error c) ∨ c.kind = .formatError) ∧ chunkBody tag dec p s = .next (raise c tag s.feCursor s))
    ∨ ∃ r t, dec p = .ok r ∧ s.checksumPresent p.length ∧ assemble r (advanceFrame tag p.length s) = .ok t
        ∧ chunkBody tag dec p s = .next (endOfStream t) := by
  unfold chunkBody
  split
  · next c hc => exact .inl ⟨c, .inl ⟨p, hc⟩, rfl⟩
  · next r hr =>
    split
    · exact .inl ⟨_, .inr rfl, rfl⟩
    · next hl =>
      split
      · next c hc => exact .inl ⟨c, .inr (assemble_error hc), rfl⟩
      · next t ht => exact .inr ⟨r, t, hr, by unfold State.checksumPresent; omega, ht, rfl⟩

/-- What a chunk instruction can do. -/
theorem exec_chunk_cases {i : Instr} (h : i.format = .chunk) (s : State) :
    (∃ c, c.kind = .formatError ∧ exec i s = .next (raise c (i.tag32 Config.ztxtTag) s.feCursor s))
    ∨ ∃ r t, decoderOf i i.payload = .ok r ∧ s.checksumPresent i.payload.length
        ∧ assemble r (advanceFrame (i.tag32 Config.ztxtTag) i.payload.length s) = .ok t
        ∧ exec i s = .next (endOfStream t) := by
  rw [exec_chunk h]
  rcases chunkBody_cases (i.tag32 Config.ztxtTag) (decoderOf i) i.payload s with ⟨c, hc, he⟩ | h
  · refine .inl ⟨c, ?_, he⟩
    rcases hc with ⟨q, hq⟩ | hc
    · exact decoderOf_error hq
    · exact hc
  · exact .inr h

/-- The chunk step where the decoder answers an error. -/
theorem chunkBody_decoder_error {tag : Word32} {dec : List Byte → Except Cause ChunkRecord} {p : List Byte} {c : Cause}
    (h : dec p = .error c) (s : State) : chunkBody tag dec p s = .next (raise c tag s.feCursor s) := by
  simp only [chunkBody, h]

/-- The chunk step where the checksum is missing. -/
theorem chunkBody_no_checksum {tag : Word32} {dec : List Byte → Except Cause ChunkRecord} {p : List Byte}
    {r : ChunkRecord} (h : dec p = .ok r) {s : State} (hs : s.inLen.toNat < s.feCursor.toNat + 12 + p.length) :
    chunkBody tag dec p s = .next (raise .lengthPastBufferEnd tag s.feCursor s) := by
  simp only [chunkBody, h, hs, if_true]

/-- The chunk step where the decoder accepts and the checksum is there: the assembler decides. -/
theorem chunkBody_assemble {tag : Word32} {dec : List Byte → Except Cause ChunkRecord} {p : List Byte}
    {r : ChunkRecord} (h : dec p = .ok r) {s : State} (hs : s.checksumPresent p.length) :
    chunkBody tag dec p s =
      match assemble r (advanceFrame tag p.length s) with
      | .error c => .next (raise c tag s.feCursor s)
      | .ok t => .next (endOfStream t) := by
  unfold chunkBody; rw [h]; exact if_neg (Nat.not_lt.mpr hs)

/-- The gate, open: a record that is no header, after a header. -/
theorem assemble_after_header {r : ChunkRecord} (hr : r.isHeader = false) {s : State} (hs : s.hdrSeen = true) :
    assemble r s = transition r s := by
  simp [assemble, hr, hs]

theorem endOfStream_of_not_seen {s : State} (h : s.endSeen = false) : endOfStream s = s := by simp [endOfStream, h]

theorem endOfStream_of_seen {s : State} (h : s.endSeen = true) : endOfStream s = { s with phase := .final } := by
  simp [endOfStream, h]

/-- End of stream changes the phase at most. -/
theorem endOfStream_frame (s : State) : endOfStream s = { s with phase := (endOfStream s).phase } := by
  unfold endOfStream; split <;> rfl

/-! ## The fetch of a chunk -/

/-- What the fetch of a chunk finds: an error, a byte not written, or a chunk instruction whose payload lies
inside IN. -/
theorem fetchChunk_cases (s : State) :
    (∃ c tag, c.kind = .formatError ∧ fetchChunk s = .trap c tag s.feCursor)
    ∨ fetchChunk s = .unwritten .input
    ∨ ∃ i, fetchChunk s = .run i ∧ i.format = .chunk ∧ i.payload.length < 2 ^ 32
        ∧ s.feCursor.toNat + 8 + i.payload.length ≤ s.inLen.toNat := by
  unfold fetchChunk
  split
  · exact .inl ⟨_, _, rfl, rfl⟩
  · split
    · exact .inr (.inl rfl)
    · next hdr hhdr =>
      split
      · exact .inl ⟨_, _, rfl, rfl⟩
      · next hlen =>
        split
        · exact .inr (.inl rfl)
        · next payload hp =>
          have hh := Memory.readBytes_length hhdr
          have hpl := Memory.readBytes_length hp
          split
          · next i hi =>
            obtain ⟨-, h2⟩ := decodeChunk_ok.mp hi
            obtain ⟨hf, -, hpay⟩ := instrOfTag_some h2
            have hcl : chunkLength (hdr ++ payload) = chunkLength hdr := by
              match hdr, hh with
              | [_, _, _, _, _, _, _, _], _ => rfl
            have hl : i.payload.length = (chunkLength hdr).toNat := by
              rw [hpay, hcl, List.length_take, List.length_drop, List.length_append, hh, hpl]; omega
            refine .inr (.inr ⟨i, rfl, hf, ?_, ?_⟩)
            · rw [hl]; exact (chunkLength hdr).isLt
            · rw [hl]; omega
          · exact .inl ⟨_, _, rfl, rfl⟩

/-- A fetched chunk instruction has the length and the tag of the header at the cursor (40_framing.md R123). -/
theorem fetchChunk_run {s : State} {i : Instr} (h : fetchChunk s = .run i) :
    ∃ hdr, s.inMem.readBytes s.feCursor.toNat 8 = some hdr ∧ i.format = .chunk
      ∧ i.tag32 Config.ztxtTag = chunkTag hdr ∧ i.payload.length = (chunkLength hdr).toNat := by
  unfold fetchChunk at h
  split at h
  · cases h
  · split at h
    · cases h
    · next hdr hh =>
      split at h
      · cases h
      · split at h
        · cases h
        · next p hp =>
          split at h
          · next j hj =>
            cases h
            have l8 := ((Memory.readBytes_eq_some _ _ _ _).mp hh).1
            have lp := ((Memory.readBytes_eq_some _ _ _ _).mp hp).1
            obtain ⟨b0, b1, b2, b3, b4, b5, b6, b7, rfl⟩ :
                ∃ b0 b1 b2 b3 b4 b5 b6 b7, hdr = [b0, b1, b2, b3, b4, b5, b6, b7] := by
              match hdr, l8 with
              | [_, _, _, _, _, _, _, _], _ => exact ⟨_, _, _, _, _, _, _, _, rfl⟩
            obtain ⟨-, hi⟩ := decodeChunk_ok.mp hj
            obtain ⟨hf, ht, hpl⟩ := instrOfTag_some hi
            refine ⟨_, hh, hf, ht, ?_⟩
            rw [hpl, ← lp]
            simp only [chunkLength] at lp
            simpa [chunkLength] using lp.le
          · cases h

/-- Where the bytes of IN below `IN_LEN` are all there, no fetch of a chunk meets an unwritten byte. -/
theorem fetchChunk_written {s : State} (h : s.inMem.covers s.inLen.toNat) : fetchChunk s ≠ .unwritten .input := by
  unfold fetchChunk
  split
  · exact fun h => by cases h
  · next h1 =>
    obtain ⟨hdr, hh⟩ := Memory.readBytes_isSome (m := s.inMem) (x := s.feCursor.toNat) (n := 8)
      (fun k hk => h _ (by omega))
    rw [hh]
    dsimp only
    split
    · exact fun h => by cases h
    · next h2 =>
      obtain ⟨p, hp⟩ := Memory.readBytes_isSome (m := s.inMem) (x := s.feCursor.toNat + 8)
        (n := (chunkLength hdr).toNat) (fun k hk => h _ (by omega))
      rw [hp]
      dsimp only
      split <;> exact fun h => by cases h

/-! ## The scanline step -/

/-- The predictor of a filter type over the fetched neighbours (44_defilter.md R204 to R208). -/
def FilterType.ofNeighbours (ft : FilterType) (n : Neighbours) : Byte := ft.predict n.a n.b n.c

/-- What a filter type latches besides (10_state.md R32). -/
def FilterType.latch (ft : FilterType) (n : Neighbours) (s : State) : State :=
  match ft with
  | .noFilter => s
  | .sub => s
  | .up => s
  | .average => s
  | .paeth => latchPaeth n s

/-- Every scanline instruction is the shared scanline step with its predictor. -/
theorem exec_scanline (ft : FilterType) (s : State) :
    exec ft.instr s = scanline ft ft.ofNeighbours ft.latch s := by
  cases ft <;> rfl

/-- The scanline instructions are those of the filter types. -/
theorem scanline_instr {i : Instr} (h : i.format = .scanline) : ∃ ft : FilterType, i = ft.instr := by
  cases i
  case rowNone => exact ⟨.noFilter, rfl⟩
  case rowSub => exact ⟨.sub, rfl⟩
  case rowUp => exact ⟨.up, rfl⟩
  case rowAvg => exact ⟨.average, rfl⟩
  case rowPaeth => exact ⟨.paeth, rfl⟩
  all_goals cases h

theorem scanline_start {ft : FilterType} {pr : Neighbours → Byte} {l : Neighbours → State → State} {s : State}
    (h : s.dfCol.toNat = 0) : scanline ft pr l s = .next (rowStart ft s) := by
  simp only [scanline, h, if_true]

theorem scanline_byte {ft : FilterType} {pr : Neighbours → Byte} {l : Neighbours → State → State} {s : State}
    {n : Neighbours} (h : s.dfCol.toNat ≠ 0) (hn : fetchNeighbours s = .ok n) :
    scanline ft pr l s = .next (writeBack n (pr n) (l n s)) := by
  simp only [scanline, h, if_false, hn]

/-- A latch of a filter type writes the Paeth intermediates at most. -/
theorem FilterType.latch_frame (ft : FilterType) (n : Neighbours) (s : State) :
    ft.latch n s = { s with
      dfP := (ft.latch n s).dfP, dfPa := (ft.latch n s).dfPa, dfPb := (ft.latch n s).dfPb, dfPc := (ft.latch n s).dfPc } := by
  cases ft <;> rfl

/-- What write-back may change, and nothing else. -/
theorem writeBack_frame (n : Neighbours) (pr : Byte) (s : State) :
    writeBack n pr s = { s with
      dfX := n.x, dfA := n.a, dfB := n.b, dfC := n.c, dfPr := pr
      obuf := Memory.write s.obuf s.rawAddr (n.x + pr)
      dfRow := (writeBack n pr s).dfRow, dfCol := (writeBack n pr s).dfCol
      dfFpos := (writeBack n pr s).dfFpos, dfOpos := (writeBack n pr s).dfOpos } := by
  unfold writeBack; dsimp only; split <;> rfl

/-- Write-back inside a row moves to the next byte. -/
theorem writeBack_inRow {n : Neighbours} {pr : Byte} {s : State} (h : s.dfCol.toNat < s.rowbytes.toNat) :
    writeBack n pr s = { s with
      dfX := n.x, dfA := n.a, dfB := n.b, dfC := n.c, dfPr := pr
      obuf := Memory.write s.obuf s.rawAddr (n.x + pr), dfCol := BitVec.ofNat 64 (s.dfCol.toNat + 1) } := by
  unfold writeBack; rw [if_pos h]

/-- Write-back at a row's last byte moves to the next row. -/
theorem writeBack_rowEnd {n : Neighbours} {pr : Byte} {s : State} (h : ¬ s.dfCol.toNat < s.rowbytes.toNat) :
    writeBack n pr s = nextRow { s with
      dfX := n.x, dfA := n.a, dfB := n.b, dfC := n.c, dfPr := pr
      obuf := Memory.write s.obuf s.rawAddr (n.x + pr) } := by
  unfold writeBack; rw [if_neg h]

/-- The fetch of a byte step looks at the position, the parameters and the two spaces alone. -/
theorem fetchNeighbours_congr {s t : State} (h1 : t.fbuf = s.fbuf) (h2 : t.obuf = s.obuf) (h3 : t.dfFpos = s.dfFpos)
    (h4 : t.dfOpos = s.dfOpos) (h5 : t.dfCol = s.dfCol) (h6 : t.dfRow = s.dfRow) (h7 : t.bpp = s.bpp)
    (h8 : t.rowbytes = s.rowbytes) : fetchNeighbours t = fetchNeighbours s := by
  simp only [fetchNeighbours, State.filteredAddr, State.rawAddr, State.hasLeft, State.hasAbove, h1, h2, h3, h4, h5, h6,
    h7, h8]

/-! ## The fetch of a scanline -/

/-- What the fetch at a row start finds, with the conditions. -/
theorem fetchRow_cases (s : State) :
    (s.dfRow = s.height ∧ fetchRow s = .finished)
    ∨ (∃ c, c.kind = .formatError ∧ fetchRow s = .trap c 0#32 (s.dfRow.setWidth 64))
    ∨ (fetchRow s = .unwritten .fbuf ∧ s.fbuf.read s.dfFpos.toNat = none
        ∧ s.dfFpos.toNat + 1 + s.rowbytes.toNat ≤ s.fLen.toNat)
    ∨ ∃ ft : FilterType, fetchRow s = .run ft.instr ∧ s.dfRow ≠ s.height
        ∧ s.dfFpos.toNat + 1 + s.rowbytes.toNat ≤ s.fLen.toNat
        ∧ s.fbuf.read s.dfFpos.toNat = some ft.byte := by
  unfold fetchRow
  split
  · next h => exact .inl ⟨h, rfl⟩
  · next hr =>
    split
    · exact .inr (.inl ⟨_, rfl, rfl⟩)
    · next hl =>
      split
      · next hb => exact .inr (.inr (.inl ⟨rfl, hb, by omega⟩))
      · next b hb =>
        simp only [decodeScanline]
        split
        · next i hi =>
          split at hi
          · next j hj =>
            cases hi
            obtain ⟨hf, hbyte⟩ := instrOfFilterByte_some hj
            obtain ⟨ft, rfl⟩ := scanline_instr hf
            refine .inr (.inr (.inr ⟨ft, rfl, hr, by omega, ?_⟩))
            rw [hb, ← hbyte]; cases ft <;> rfl
          · cases hi
        · exact .inr (.inl ⟨_, rfl, rfl⟩)

/-- A row start that lies inside FBUF, with a filter type the spec knows, runs its instruction. -/
theorem fetchRow_run {s : State} {ft : FilterType} (hr : s.dfRow ≠ s.height)
    (hl : s.dfFpos.toNat + 1 + s.rowbytes.toNat ≤ s.fLen.toNat) (hb : s.fbuf.read s.dfFpos.toNat = some ft.byte) :
    fetchRow s = .run ft.instr := by
  simp [fetchRow, hr, Nat.not_lt.mpr hl, hb, decodeScanline]

/-! ## The final pass and the Inflate call -/

/-- What the final pass can do. -/
theorem finalPass_cases (s : State) :
    (∃ c, finalCause s = some c ∧ c.kind = .formatError ∧ finalPass s = .next (raise c 0#32 s.feCursor s))
    ∨ (finalCause s = none ∧
        ((s.cmdLatch = .parse ∧ finalPass s = .next { deriveRow s with phase := .done })
        ∨ (s.cmdLatch = .decode ∧ finalPass s = .next { deriveRow s with phase := .inflate })
        ∨ (s.cmdLatch ≠ .parse ∧ s.cmdLatch ≠ .decode ∧ finalPass s = .fault .noTransition))) := by
  unfold finalPass
  split
  · next c hc =>
    refine .inl ⟨c, hc, ?_, rfl⟩
    unfold finalCause at hc
    (repeat' split at hc) <;> cases hc <;> rfl
  · next hc =>
    refine .inr ⟨hc, ?_⟩
    split
    · next h => exact .inl ⟨h, rfl⟩
    · next h => exact .inr (.inl ⟨h, rfl⟩)
    · next h => exact .inr (.inr ⟨by simp [h], by simp [h], rfl⟩)
    · next h => exact .inr (.inr ⟨by simp [h], by simp [h], rfl⟩)

/-- No check of the final pass fails exactly when the image is legal. -/
theorem finalCause_none {s : State} : finalCause s = none ↔ s.legalImage := by
  unfold finalCause State.legalImage
  by_cases h1 : s.bitDepth ∈ legalDepths s.colorModel
  · cases hcm : s.colorModel <;> cases hp : s.palSeen <;> simp [paletteForbiddenFor, hcm ▸ h1]
    split <;> simp_all
  · simp [h1]

/-- A legal image has 1 to 64 bits per pixel. -/
theorem bitsPerPixel_range {s : State} (h : s.bitDepth ∈ legalDepths s.colorModel) :
    1 ≤ s.bitsPerPixel ∧ s.bitsPerPixel ≤ 64 := by
  unfold State.bitsPerPixel
  generalize s.bitDepth = d at h
  generalize s.colorModel = cm at h
  cases cm <;> revert d <;> decide

/-- What the Inflate call can do. -/
theorem inflateCall_cases (inflate : List Byte → InflateResult) (s : State) :
    (s.zbuf.readBytes 0 s.zlen.toNat = none ∧ inflateCall inflate s = .fault (.unwrittenByte .zbuf))
    ∨ inflateCall inflate s = .next (raise .inflateFailed 0#32 0#64 s)
    ∨ inflateCall inflate s = .refused .inflateTooLong
    ∨ ∃ f : List Byte, f.length < Config.lengthBound ∧ inflateCall inflate s = .next (defilterInit { s with
        fbuf := Memory.ofBytes f, fLen := BitVec.ofNat 64 f.length, phase := .defilter }) := by
  unfold inflateCall
  split
  · next h => exact .inl ⟨h, rfl⟩
  · split
    · exact .inr (.inl rfl)
    · next f _ =>
      split
      · exact .inr (.inr (.inl rfl))
      · next h => exact .inr (.inr (.inr ⟨f, by omega, rfl⟩))

end Sys2Proof.Machine
end

