-- ==== Sys2Proof/Laws/PerInstr.lean ====
section
/-! SUPPORT. Statements for every instruction, one lemma per constructor. -/

namespace Sys2Proof.Laws.EncodedLength

/-- How many bytes an instruction's encoding has, whatever its checksum (30_encoding.md R90, R91, R100): SIG is eight
bytes, a chunk is twelve and its payload, a scanline is selected by one. -/
def Statement (i : Instr) : Prop :=
  ∀ ztxt crc : Word32, (encodeWith ztxt crc i).length =
    match i.format with
    | .sig => 8
    | .chunk => 12 + i.payload.length
    | .scanline => 1

/-- The length of a chunk's encoding. -/
theorem of_chunk {i : Instr} (h : i.format = .chunk) : Statement i := by
  intro ztxt crc
  simp [encodeWith, encodeFrame, h]
  omega

theorem sig : Statement .sig := fun _ _ => rfl
theorem ihdr (p : List Byte) : Statement (.ihdr p) := of_chunk rfl
theorem plte (p : List Byte) : Statement (.plte p) := of_chunk rfl
theorem idat (p : List Byte) : Statement (.idat p) := of_chunk rfl
theorem iend (p : List Byte) : Statement (.iend p) := of_chunk rfl
theorem bkgd (p : List Byte) : Statement (.bkgd p) := of_chunk rfl
theorem trns (p : List Byte) : Statement (.trns p) := of_chunk rfl
theorem chrm (p : List Byte) : Statement (.chrm p) := of_chunk rfl
theorem gama (p : List Byte) : Statement (.gama p) := of_chunk rfl
theorem hist (p : List Byte) : Statement (.hist p) := of_chunk rfl
theorem phys (p : List Byte) : Statement (.phys p) := of_chunk rfl
theorem sbit (p : List Byte) : Statement (.sbit p) := of_chunk rfl
theorem text (p : List Byte) : Statement (.text p) := of_chunk rfl
theorem time (p : List Byte) : Statement (.time p) := of_chunk rfl
theorem ztxt (p : List Byte) : Statement (.ztxt p) := of_chunk rfl
theorem rowNone : Statement .rowNone := fun _ _ => rfl
theorem rowSub : Statement .rowSub := fun _ _ => rfl
theorem rowUp : Statement .rowUp := fun _ _ => rfl
theorem rowAvg : Statement .rowAvg := fun _ _ => rfl
theorem rowPaeth : Statement .rowPaeth := fun _ _ => rfl

end Sys2Proof.Laws.EncodedLength
end

