-- ==== Sys2Proof/Laws/Step.lean ====
section
/-! SUPPORT. What one step can do, said once: `BlockMove` for a step of the block, `HostEffect` for a move of the host, and
the theorems that every step is one of these. -/

namespace Sys2Proof.Machine

/-! ## A step of the block -/

/-- Everything a step of the block that answers a next state can have done, with the conditions it met. -/
inductive BlockMove (s : State) : State → Prop where
  /-- no run is in progress -/
  | wait (idle : s.phase.busy = false) : BlockMove s s
  /-- a check failed -/
  | failed (c : Cause) (tag : Word32) (pos : Word64) (busy : s.phase.busy = true)
      (kind : c.kind = .signatureError ∨ c.kind = .formatError ∨ c.kind = .decompressionError)
      (tagZero : s.phase ≠ .chunks → tag = 0)
      (posZero : s.phase = .sig ∨ s.phase = .inflate → pos = 0)
      (posCursor : s.phase = .chunks ∨ s.phase = .final → pos = s.feCursor)
      (posRow : s.phase = .defilter → pos = s.dfRow.setWidth 64) : BlockMove s (raise c tag pos s)
  /-- the signature matched -/
  | signature (phase : s.phase = .sig) (len : 8 ≤ s.inLen.toNat) :
      BlockMove s { s with feCursor := 8#64, phase := .chunks }
  /-- a chunk completed -/
  | chunk (i : Instr) (r : ChunkRecord) (t : State) (phase : s.phase = .chunks) (isChunk : i.format = .chunk)
      (len : i.payload.length < 2 ^ 32) (record : decoderOf i i.payload = .ok r)
      (checksum : s.checksumPresent i.payload.length)
      (assembled : assemble r (advanceFrame (i.tag32 Config.ztxtTag) i.payload.length s) = .ok t) :
      BlockMove s (endOfStream t)
  /-- the final pass of a PARSE run succeeded -/
  | parsed (phase : s.phase = .final) (legal : s.legalImage) (cmd : s.cmdLatch = .parse) :
      BlockMove s { deriveRow s with phase := .done }
  /-- the final pass of a DECODE run succeeded -/
  | described (phase : s.phase = .final) (legal : s.legalImage) (cmd : s.cmdLatch = .decode) :
      BlockMove s { deriveRow s with phase := .inflate }
  /-- the decompressor answered -/
  | inflated (f : List Byte) (phase : s.phase = .inflate) (len : f.length < Config.lengthBound) :
      BlockMove s (defilterInit { s with
        fbuf := Memory.ofBytes f, fLen := BitVec.ofNat 64 f.length, phase := .defilter })
  /-- a row started -/
  | row (ft : FilterType) (phase : s.phase = .defilter) (col : s.dfCol.toNat = 0) (left : s.dfRow ≠ s.height)
      (len : s.dfFpos.toNat + 1 + s.rowbytes.toNat ≤ s.fLen.toNat) : BlockMove s (rowStart ft s)
  /-- a byte was reconstructed -/
  | byte (n : Neighbours) (phase : s.phase = .defilter) (col : s.dfCol.toNat ≠ 0) (fetched : fetchNeighbours s = .ok n) :
      BlockMove s (writeBack n (s.dfFtype.ofNeighbours n) (s.dfFtype.latch n s))
  /-- the image is complete -/
  | finished (phase : s.phase = .defilter) (col : s.dfCol.toNat = 0) (row : s.dfRow = s.height)
      (excess : ¬(s.dfFpos.toNat < s.fLen.toNat ∧ s.excessReject = true)) :
      BlockMove s { s with oLen := s.dfOpos, phase := .done }

theorem afterFetch_run (i : Instr) (s : State) : afterFetch (.run i) s = exec i s := rfl

/-- Every step of the block that answers a next state is one of the moves. -/
theorem blockStep_next {inflate : List Byte → InflateResult} {s t : State} (h : blockStep inflate s = .next t) :
    BlockMove s t := by
  unfold blockStep at h
  cases hp : s.phase <;> simp only [hp] at h
  case idle => cases h; exact .wait (by rw [hp]; rfl)
  case done => cases h; exact .wait (by rw [hp]; rfl)
  case error => cases h; exact .wait (by rw [hp]; rfl)
  case sig =>
    have fail : BlockMove s (raise .signatureMismatch 0#32 0#64 s) :=
      .failed _ _ _ (by rw [hp]; rfl) (.inl rfl) (fun _ => rfl) (fun _ => rfl) (by simp [hp]) (by simp [hp])
    simp only [exec, execSig] at h
    split at h
    · cases h; exact fail
    · next hl =>
      split at h
      · cases h
      · split at h
        · cases h; exact .signature hp (by omega)
        · cases h; exact fail
  case chunks =>
    rcases fetchChunk_cases s with ⟨c, tag, hk, hf⟩ | hf | ⟨i, hf, hi, hlen, -⟩ <;> rw [hf] at h
    · cases h
      exact .failed _ _ _ (by rw [hp]; rfl) (.inr (.inl hk)) (fun h => absurd hp h) (by simp [hp]) (fun _ => rfl)
        (by simp [hp])
    · cases h
    · rw [afterFetch_run] at h
      rcases exec_chunk_cases hi s with ⟨c, hk, he⟩ | ⟨r, u, hr, hc, ha, he⟩ <;> rw [he] at h <;> cases h
      · exact .failed _ _ _ (by rw [hp]; rfl) (.inr (.inl hk)) (fun h => absurd hp h) (by simp [hp]) (fun _ => rfl)
          (by simp [hp])
      · exact .chunk i r u hp hi hlen hr hc ha
  case final =>
    rcases finalPass_cases s with ⟨c, -, hk, he⟩ | ⟨hn, ⟨hc, he⟩ | ⟨hc, he⟩ | ⟨-, -, he⟩⟩ <;> rw [he] at h <;> cases h
    · exact .failed _ _ _ (by rw [hp]; rfl) (.inr (.inl hk)) (fun _ => rfl) (by simp [hp]) (fun _ => rfl) (by simp [hp])
    · exact .parsed hp (finalCause_none.mp hn) hc
    · exact .described hp (finalCause_none.mp hn) hc
  case inflate =>
    rcases inflateCall_cases inflate s with ⟨-, he⟩ | he | he | ⟨f, hl, he⟩ <;> rw [he] at h <;> cases h
    · exact .failed _ _ _ (by rw [hp]; rfl) (.inr (.inr rfl)) (fun _ => rfl) (fun _ => rfl) (by simp [hp]) (by simp [hp])
    · exact .inflated f hp hl
  case defilter =>
    have fail : ∀ c : Cause, c.kind = .formatError → BlockMove s (raise c 0#32 (s.dfRow.setWidth 64) s) := fun c hk =>
      .failed _ _ _ (by rw [hp]; rfl) (.inr (.inl hk)) (fun _ => rfl) (by simp [hp]) (by simp [hp]) (fun _ => rfl)
    unfold fetchScanline at h
    split at h
    · next hc =>
      rcases fetchRow_cases s with ⟨hr, hf⟩ | ⟨c, hk, hf⟩ | ⟨hf, -⟩ | ⟨ft, hf, hr, hl, -⟩ <;> rw [hf] at h
      · simp only [afterFetch, finish] at h
        split at h
        · cases h; rw [← hr]; exact fail _ rfl
        · next he => cases h; exact .finished hp hc hr he
      · cases h; exact fail _ hk
      · cases h
      · rw [afterFetch_run, exec_scanline, scanline_start hc] at h
        cases h
        exact .row ft hp hc hr hl
    · next hc =>
      rw [afterFetch_run, exec_scanline] at h
      simp only [scanline, hc, if_false] at h
      split at h
      · cases h
      · next n hn => cases h; exact .byte n hp hc hn

/-! ## The host's moves -/

theorem regAt_offset (r : Reg) : regAt r.offset = some r := by cases r <;> rfl

/-- A write at a register's offset is a write to the register. -/
theorem writeOffset_offset (r : Reg) (v : Word32) (s : State) : writeOffset r.offset v s = writeReg r v s := by
  simp only [writeOffset, regAt_offset]

/-- A write to `CTRL` is a command or CLEAR. -/
theorem writeReg_ctrl (v : Word32) (s : State) : writeReg .ctrl v s = writeCtrl v s := by
  unfold writeReg; exact if_pos rfl

/-- A write to another register, in IDLE. -/
theorem writeReg_idle {r : Reg} (hr : r ≠ .ctrl) (v : Word32) {s : State} (h : s.phase = .idle) :
    writeReg r v s = .next (setReg r v s) := by
  unfold writeReg; rw [if_neg hr, if_pos h]

/-- A read at a register's offset reads the register. -/
theorem readOffset_offset (r : Reg) (s : State) : readOffset r.offset s = readReg r s := by
  simp only [readOffset, regAt_offset]

theorem regAt_some {off : Nat} {r : Reg} (h : regAt off = some r) : off = r.offset := by
  have := List.find?_some h
  simpa using (of_decide_eq_true this).symm

/-- Everything a move of the host can do to the block, with the conditions it met. -/
inductive HostEffect (s : State) : HostMove → State → Prop where
  /-- a register write without effect -/
  | ignored (off : Nat) (v : Word32) : HostEffect s (.writeReg off v) s
  /-- CLEAR -/
  | cleared (v : Word32) (phase : s.phase = .done ∨ s.phase = .error) (bit : v.getLsbD 2 = true) :
      HostEffect s (.writeReg 0 v) (clear s)
  /-- the command DECODE or PARSE -/
  | parse (v : Word32) (cmd : Command) (phase : s.phase = .idle) (which : cmd = .decode ∨ cmd = .parse)
      (len : s.inLen.toNat < Config.lengthBound) :
      HostEffect s (.writeReg 0 v) { runInit s with cmdLatch := cmd, phase := .sig }
  /-- the command DEFILTER -/
  | defilter (v : Word32) (phase : s.phase = .idle) : HostEffect s (.writeReg 0 v) (startDefilter s)
  /-- a register write in IDLE -/
  | set (r : Reg) (v : Word32) (phase : s.phase = .idle) : HostEffect s (.writeReg r.offset v) (setReg r v s)
  /-- a byte placed in IN -/
  | placedIn (off : Word64) (b : Byte) (idle : s.phase.busy = false) :
      HostEffect s (.writeIn off b) { s with inMem := Memory.write s.inMem off.toNat b }
  /-- a byte placed in FBUF -/
  | placedFbuf (off : Word64) (b : Byte) (idle : s.phase.busy = false) :
      HostEffect s (.writeFbuf off b) { s with fbuf := Memory.write s.fbuf off.toNat b }
  /-- hard reset -/
  | reset : HostEffect s .hardReset (hardReset s)
  /-- the block's own step -/
  | pass (t : State) (move : BlockMove s t) : HostEffect s .pass t

/-- Every move of the host that answers a next state is one of the effects. -/
theorem hostMove_next {inflate : List Byte → InflateResult} {m : HostMove} {s t : State}
    (h : hostMove inflate m s = .next t) : HostEffect s m t := by
  cases m with
  | writeReg off v =>
    simp only [hostMove, writeOffset] at h
    split at h
    · next r hr =>
      have hoff := regAt_some hr
      unfold writeReg at h
      split at h
      · next hctrl =>
        subst hctrl
        rw [hoff]
        show HostEffect s (.writeReg 0 v) t
        unfold writeCtrl at h
        split at h
        · next hclr =>
          split at h
          · next hp => cases h; exact .cleared v hp hclr
          · cases h; exact .ignored 0 _
        · split at h
          · next hp =>
            unfold startParse at h
            split at h
            · cases h; exact .ignored 0 _
            · split at h
              · cases h
              · next hl => cases h; exact .parse v _ hp (.inl rfl) (by omega)
            · cases h; exact .defilter v hp
            · split at h
              · cases h
              · next hl => cases h; exact .parse v _ hp (.inr rfl) (by omega)
          · cases h; exact .ignored 0 _
      · split at h
        · next hp => cases h; rw [hoff]; exact .set r v hp
        · cases h; exact .ignored _ _
    · cases h; exact .ignored _ _
  | writeIn off b =>
    simp only [hostMove, hostWriteIn] at h
    split at h
    · cases h
    · next hb => cases h; exact .placedIn off b (by simpa using hb)
  | writeFbuf off b =>
    simp only [hostMove, hostWriteFbuf] at h
    split at h
    · cases h
    · next hb => cases h; exact .placedFbuf off b (by simpa using hb)
  | hardReset => cases h; exact .reset
  | pass => exact .pass t (blockStep_next h)

/-! ## One step of the machine -/

/-- Every step that answers a next state is a step of the block, or an effect of the host's next move. -/
theorem stepWith_next {inflate : List Byte → InflateResult} {s t : State} (h : stepWith inflate s = .next t) :
    (s.host = [] ∧ BlockMove s t) ∨ ∃ m ms, s.host = m :: ms ∧ HostEffect { s with host := ms } m t := by
  unfold stepWith at h
  split at h
  · next hh => exact .inl ⟨hh, blockStep_next h⟩
  · next m ms hh => exact .inr ⟨m, ms, hh, hostMove_next h⟩

/-- Without a move of the host, a step is the block's. -/
theorem stepWith_block (inflate : List Byte → InflateResult) {s : State} (h : s.host = []) :
    stepWith inflate s = blockStep inflate s := by
  simp only [stepWith, h]

/-- With a move of the host, a step is that move's. -/
theorem stepWith_host (inflate : List Byte → InflateResult) {s : State} {m : HostMove} {ms : List HostMove}
    (h : s.host = m :: ms) : stepWith inflate s = hostMove inflate m { s with host := ms } := by
  simp only [stepWith, h]

theorem step_eq (s : State) : step s = stepWith Config.inflate s := rfl

/-- What a write to an RW register may change, and nothing else (10_state.md R34). -/
theorem setReg_frame (r : Reg) (v : Word32) (s : State) :
    setReg r v s = { s with
      excessReject := (setReg r v s).excessReject, inLen := (setReg r v s).inLen, fLen := (setReg r v s).fLen
      height := (setReg r v s).height, bpp := (setReg r v s).bpp, rowbytes := (setReg r v s).rowbytes } := by
  cases r <;> rfl

/-- What starting a DEFILTER run can give. -/
theorem startDefilter_cases (s : State) :
    (badDefilterParameter s = true
      ∧ startDefilter s = raise .invalidDefilterParameter 0#32 0#64 { runInitKeep s with cmdLatch := .defilter })
    ∨ (badDefilterParameter s = false
      ∧ startDefilter s = { defilterInit { runInitKeep s with cmdLatch := .defilter } with phase := .defilter }) := by
  unfold startDefilter
  cases h : badDefilterParameter s
  · exact .inr ⟨rfl, rfl⟩
  · exact .inl ⟨rfl, rfl⟩

theorem badDefilterParameter_false {s : State} : badDefilterParameter s = false ↔
    1 ≤ s.bpp.toNat ∧ s.bpp.toNat ≤ 8 ∧ s.rowbytes.toNat < Config.lengthBound ∧ s.fLen.toNat < Config.lengthBound := by
  simp only [badDefilterParameter, Bool.or_eq_false_iff, decide_eq_false_iff_not]
  omega

/-! ## What the host reads -/

/-- The two words of a 64-bit register are the register. -/
theorem high32_append_low32 (v : Word64) : (high32 v ++ low32 v : Word64) = v := by
  unfold high32 low32
  apply BitVec.eq_of_getLsbD_eq
  intro i hi
  simp only [BitVec.getLsbD_append, BitVec.getLsbD_extractLsb']
  by_cases h : i < 32
  · simp [h]
  · simp [h, show i - 32 < 32 by omega, show 32 + (i - 32) = i by omega]

/-- A finished run's result is what its registers and spaces hold. -/
theorem State.result_done {s : State} (h : s.phase = .done) : s.result = s.resultOf s.cmdLatch := if_pos h

/-- CLEAR takes nothing of a result away. -/
@[simp] theorem State.resultOf_clear (cmd : Command) (s : State) : (clear s).resultOf cmd = s.resultOf cmd := by
  cases cmd <;> rfl

/-- Where the host's moves play no part, changing them changes a result in nothing else. -/
@[simp] theorem State.resultOf_host (cmd : Command) (s : State) (ms : List HostMove) :
    State.resultOf cmd { s with host := ms } = s.resultOf cmd := by cases cmd <;> rfl

end Sys2Proof.Machine
end

