-- ==== Sys2Proof/Tests/Slice0.lean ====
section
/-! SUPPORT. Tests. `test_` theorems compare the model with examples the spec gives, each cited; `witness_` theorems show,
for the statement they are named after, a state and operands that meet its hypotheses, one for each clause and at the
boundary where there is one. -/

namespace Sys2Proof.Tests

open Sys2Proof.Machine

/-! ## States -/

/-- A DECODE run in phase CHUNKS at offset 8, with `IN_LEN` = 8 + `n` and, unless changed, a greyscale header seen. -/
def mid (n : Nat) : State :=
  { State.reset with phase := .chunks, cmdLatch := .decode, feCursor := 8, inLen := BitVec.ofNat 64 (8 + n), hdrSeen := true }

/-- The same, with the bytes of the chunk walk in IN. -/
def midWith (bs : List Byte) : State :=
  { mid bs.length with inMem := Memory.writeBytes [] 8 bs }

/-- A run in phase SIG over the bytes of IN. -/
def sigWith (bs : List Byte) : State :=
  { State.reset with phase := .sig, cmdLatch := .decode, inMem := Memory.ofBytes bs, inLen := BitVec.ofNat 64 bs.length }

/-- A run in phase FINAL. -/
def finalWith (cmd : Command) (cm : ColorModel) (depth : Byte) : State :=
  { State.reset with
    phase := .final, cmdLatch := cmd, feCursor := 45, inLen := 45, hdrSeen := true, endSeen := true
    width := 5, height := 1, bitDepth := depth, colorModel := cm }

/-- A DEFILTER run at the start of row 0: two rows of two bytes, `BPP` 1, a Sub row and an Up row. -/
def rows2 : State :=
  { State.reset with
    phase := .defilter, cmdLatch := .defilter, height := 2, bpp := 1, rowbytes := 2, fLen := 6
    fbuf := Memory.ofBytes [1, 5, 6, 2, 7, 8] }

/-- The same run at the start of row 1. -/
def rows2Next : State :=
  { rows2 with dfRow := 1, dfFpos := 3, dfOpos := 2, dfFtype := .sub, obuf := Memory.ofBytes [5, 11] }

/-- A byte step at the second byte of row 1, with all four operand bytes present: x, left, above, upper-left. -/
def atByte (ft : FilterType) (x a b c : Byte) : State :=
  { State.reset with
    phase := .defilter, cmdLatch := .defilter, height := 2, bpp := 1, rowbytes := 2, fLen := 6
    dfRow := 1, dfCol := 2, dfFpos := 3, dfOpos := 2, dfFtype := ft
    fbuf := Memory.ofBytes [0, c, b, ft.byte, 0, x], obuf := Memory.ofBytes [c, b, a] }

/-- A finished run of one row of one byte. -/
def doneWith (cmd : Command) : State :=
  { State.reset with
    phase := .done, cmdLatch := cmd, height := 1, rowbytes := 1, oLen := 1, obuf := [(0, 9)], zlen := 1, zbuf := [(0, 7)] }

/-- A failed run. -/
def failed : State := raise .signatureMismatch 0 0 (sigWith [])

/-- What a chunk step over these payload and header fields leaves, seen through `f`. -/
def seen {α : Type} (r : StepResult) (f : State → α) : Option α := (nextOf r).map f

/-- The error a step ended in: `PHASE` is ERROR, and the cause code. -/
def errorOf (r : StepResult) : Option (Bool × Byte × Word32 × Word64) :=
  seen r (fun t => (decide (t.phase = .error), t.errCause, t.errTag, t.errPos))

/-! ## Well-formedness and decoding -/

/-- The length field is 32 bits wide (30_encoding.md R92), so a payload of 2^32 bytes is refused. -/
theorem test_wellformed_refuses_oversize : WellFormed (.idat (List.replicate (2 ^ 32) 0)) = false := by
  simp only [WellFormed, Instr.payload, List.length_replicate, decide_eq_false_iff_not]; omega

theorem test_wellformed_accepts_largest : WellFormed (.idat (List.replicate (2 ^ 32 - 1) 0)) = true := by
  simp only [WellFormed, Instr.payload, List.length_replicate, decide_eq_true_eq]; omega

/-- 30_encoding.md R90. -/
theorem test_decode_sig : decodeTableWord 64 0x89504E470D0A1A0A = some .sig := by decide

/-- 30_encoding.md R90: one bit differs. -/
theorem test_decode_not_sig : decodeTableWord 64 0x88504E470D0A1A0A = none := by decide

/-- 30_encoding.md R93: the 14 tags. -/
theorem test_decode_tags :
    [0x49484452, 0x504C5445, 0x49444154, 0x49454E44, 0x624B4744, 0x74524E53, 0x6348524D, 0x67414D41, 0x68495354, 0x70485973,
      0x73424954, 0x74455874, 0x74494D45, 0x7A545854].map (decodeTableWord 32)
    = [some (.ihdr []), some (.plte []), some (.idat []), some (.iend []), some (.bkgd []), some (.trns []), some (.chrm []),
      some (.gama []), some (.hist []), some (.phys []), some (.sbit []), some (.text []), some (.time []), some (.ztxt [])] := by
  decide

/-- 40_framing.md R125: "sRGB", and 41_chunk_decoders.md R153: "zTXt", are unknown tags. -/
theorem test_decode_unknown_tags : decodeTableWord 32 0x73524742 = none ∧ decodeTableWord 32 0x7A545874 = none := by decide

/-- 30_encoding.md R101: the five filter types, and 5 is none. -/
theorem test_decode_filter_types :
    [0, 1, 2, 3, 4, 5].map (decodeTableWord 8)
    = [some .rowNone, some .rowSub, some .rowUp, some .rowAvg, some .rowPaeth, none] := by decide

/-- 41_chunk_decoders.md R140: the example payload, in its frame. -/
theorem test_decode_ihdr :
    decode Config.ztxtTag .chunk
      [0x00, 0x00, 0x00, 0x0D, 0x49, 0x48, 0x44, 0x52, 0x00, 0x00, 0x00, 0x02, 0x00, 0x00, 0x00, 0x02, 0x08, 0x02, 0x00, 0x00,
        0x00, 0xFD, 0xD4, 0x9A, 0x73]
      = .ok (.ihdr [0x00, 0x00, 0x00, 0x02, 0x00, 0x00, 0x00, 0x02, 0x08, 0x02, 0x00, 0x00, 0x00]) := by decide

/-- 41_chunk_decoders.md R147: the example chunk. -/
theorem test_decode_gama :
    decode Config.ztxtTag .chunk
      [0x00, 0x00, 0x00, 0x04, 0x67, 0x41, 0x4D, 0x41, 0x00, 0x00, 0xB1, 0x8F, 0x0B, 0xFC, 0x61, 0x05]
      = .ok (.gama [0x00, 0x00, 0xB1, 0x8F]) := by decide

/-! ## One step each -/

/-- 40_framing.md R121. -/
theorem test_sig_match :
    seen (step (sigWith [0x89, 0x50, 0x4E, 0x47, 0x0D, 0x0A, 0x1A, 0x0A])) (fun t => (t.phase, t.feCursor))
      = some (.chunks, 8) := by decide

/-- 40_framing.md R121: the example `IN[0] = 0x88`. -/
theorem test_sig_mismatch :
    seen (step (sigWith [0x88, 0x50, 0x4E, 0x47, 0x0D, 0x0A, 0x1A, 0x0A])) (fun t => (t.phase, t.errKind, t.errPos, t.feCursor))
      = some (.error, .signatureError, 0, 0) := by decide

/-- 42_assembler.md R161, 40_framing.md R127: the example header; the cursor goes from 8 to 33. -/
theorem test_ihdr :
    seen (exec (.ihdr [0, 0, 0, 2, 0, 0, 0, 2, 8, 2, 0, 0, 0]) { mid 25 with hdrSeen := false })
      (fun t => (t.width, t.height, t.bitDepth, t.colorModel, t.hdrSeen, t.feCursor)) = some (2, 2, 8, .rgb, true, 33) := by decide

/-- 41_chunk_decoders.md R140: `payload[12] = 2` is not interlaced; width is big-endian (30_encoding.md R94). -/
theorem test_ihdr_bytes :
    seen (exec (.ihdr [1, 2, 3, 4, 5, 6, 7, 8, 16, 6, 9, 9, 2]) { mid 25 with hdrSeen := false })
      (fun t => (t.width, t.height, t.bitDepth, t.colorModel, t.interlace))
      = some (0x01020304, 0x05060708, 16, .rgbAlpha, false) := by decide

/-- 41_chunk_decoders.md R141: the example palette. -/
theorem test_plte :
    seen (exec (.plte [0xFF, 0x00, 0x00, 0x00, 0xFF, 0x00, 0x00, 0x00, 0xFF]) (mid 21)) (fun t => (t.pal, t.palSeen, t.palLen))
      = some ([⟨255, 0, 0⟩, ⟨0, 255, 0⟩, ⟨0, 0, 255⟩], true, 3) := by decide

/-- 42_assembler.md R162: a second PLTE is DuplicatePalette, cause 10 (60_exceptions.md R231). -/
theorem test_plte_duplicate :
    errorOf (exec (.plte []) { mid 12 with palSeen := true }) = some (true, 10, 0x504C5445, 8) := by decide

/-- 42_assembler.md R163: the second of the example's two IDAT chunks. -/
theorem test_idat :
    seen (exec (.idat [0x02, 0x00]) { mid 14 with zlen := 3, zbuf := Memory.ofBytes [0x78, 0x01, 0x01], dataSeen := true })
      (fun t => (t.zbuf.readBytes 0 5, t.zlen)) = some (some [0x78, 0x01, 0x01, 0x02, 0x00], 5) := by decide

/-- 41_chunk_decoders.md R142: an empty IDAT still sets the flag. -/
theorem test_idat_empty : seen (exec (.idat []) (mid 12)) (fun t => (t.dataSeen, t.zlen)) = some (true, 0) := by decide

/-- 40_framing.md R126, R128: the End chunk with a wrong checksum ends the walk. -/
theorem test_iend :
    seen (step (midWith [0, 0, 0, 0, 0x49, 0x45, 0x4E, 0x44, 0, 0, 0, 0])) (fun t => (t.phase, t.endSeen, t.feCursor))
      = some (.final, true, 20) := by decide

/-- 41_chunk_decoders.md R143: EndNotEmpty, cause 6, before the missing checksum. -/
theorem test_iend_not_empty : errorOf (exec (.iend [0]) (mid 9)) = some (true, 6, 0x49454E44, 8) := by decide

/-- 41_chunk_decoders.md R144: payload `00 FF` is Grey(255). -/
theorem test_bkgd_grey :
    seen (exec (.bkgd [0x00, 0xFF]) (mid 14)) (fun t => (t.bkgdKind, t.bkgdGrey, t.bkgdSeen)) = some (.grey, 255, true) := by
  decide

/-- 42_assembler.md R164: bKGD of length 1 on an RGB image is BackgroundShapeMismatch, cause 13. -/
theorem test_bkgd_shape :
    errorOf (exec (.bkgd [2]) { mid 13 with colorModel := .rgb }) = some (true, 13, 0x624B4744, 8) := by decide

/-- 42_assembler.md R165: the example, three palette entries and payload `40`. -/
theorem test_trns_padding :
    seen (exec (.trns [0x40]) { mid 13 with colorModel := .indexed, palSeen := true, pal := List.replicate 3 ⟨0, 0, 0⟩ })
      (fun t => (t.trnsKind, t.trnsAlpha, t.trnsSeen)) = some (.alphaList, [0x40, 0xFF, 0xFF], true) := by decide

/-- 42_assembler.md R165: transparency on an alpha-bearing model is TransparencyForbidden, cause 14. -/
theorem test_trns_forbidden :
    errorOf (exec (.trns []) { mid 12 with colorModel := .greyAlpha }) = some (true, 14, 0x74524E53, 8) := by decide

/-- 41_chunk_decoders.md R146 to R153: the cursor's advance in each rule's example. -/
theorem test_ignorable_advance :
    [exec (.chrm (List.replicate 32 0)) (mid 44), exec (.gama [0x00, 0x00, 0xB1, 0x8F]) (mid 16),
      exec (.hist (List.replicate 6 0)) (mid 18), exec (.phys (List.replicate 9 0)) (mid 21),
      exec (.sbit [0, 0, 0]) (mid 15), exec (.text [0x41, 0x00, 0x42]) (mid 15),
      exec (.time (List.replicate 7 0)) (mid 19), exec (.ztxt []) (mid 12)].map (fun r => seen r (fun t => t.feCursor.toNat - 8))
    = [some 44, some 16, some 18, some 21, some 15, some 15, some 19, some 12] := by decide

/-- 42_assembler.md R160: an ignorable chunk before the header is HeaderNotFirst, cause 8. -/
theorem test_gama_first :
    errorOf (exec (.gama []) { mid 12 with hdrSeen := false }) = some (true, 8, 0x67414D41, 8) := by decide

/-- 44_defilter.md R204: the example. -/
theorem test_none :
    seen (step (atByte .noFilter 0x2A 9 9 9)) (fun t => t.obuf.read 3) = some (some 0x2A) := by decide

/-- 44_defilter.md R205: the last byte of the example row: filtered `FF` after raw `03` gives `02`. -/
theorem test_sub : seen (step (atByte .sub 0xFF 0x03 9 9)) (fun t => t.obuf.read 3) = some (some 0x02) := by decide

/-- 44_defilter.md R206: the example. -/
theorem test_up : seen (step (atByte .up 0x20 9 0xF0 9)) (fun t => t.obuf.read 3) = some (some 0x10) := by decide

/-- 44_defilter.md R207: the example. -/
theorem test_avg : seen (step (atByte .average 0x01 0x7F 0xFF 9)) (fun t => t.obuf.read 3) = some (some 0xC0) := by decide

/-- 44_defilter.md R208: the example. -/
theorem test_paeth :
    seen (step (atByte .paeth 0xFF 0x1C 0x5B 0x1B)) (fun t => (t.obuf.read 3, t.dfPr)) = some (some 0x5A, 0x5B) := by decide

/-- 44_defilter.md R209: the two tie examples. -/
theorem test_paeth_ties : paethPredictor 6 12 10 = 6 ∧ paethPredictor 12 6 10 = 6 := by decide

/-- 44_defilter.md R203, R205: the first byte of row 1 takes nothing from the end of row 0. -/
theorem test_sub_left_edge :
    seen (step { atByte .sub 0x2A 9 9 9 with dfCol := 1 }) (fun t => (t.obuf.read 2, t.dfCol)) = some (some 0, 2) := by decide

/-- 44_defilter.md R211: `DF.row`, `DF.fpos`, `DF.opos` at the end of row 1 of two rows of two bytes. -/
theorem test_row_end :
    seen (step (atByte .up 0 0 0 0)) (fun t => (t.dfRow, t.dfFpos, t.dfOpos, t.dfCol)) = some (2, 6, 4, 0) := by decide

/-- 44_defilter.md R202: filter type 5 is InvalidFilterType, cause 21, at row 0. -/
theorem test_invalid_filter_type :
    errorOf (step { rows2 with fbuf := Memory.ofBytes [5, 5, 6, 2, 7, 8] }) = some (true, 21, 0, 0) := by decide

/-- 44_defilter.md R211: `HEIGHT = 0` finishes at the first step. -/
theorem test_finish_empty :
    seen (step { rows2 with height := 0, fLen := 0 }) (fun t => (t.phase, t.oLen)) = some (.done, 0) := by decide

/-- 42_assembler.md R174: Palette-Indexed, depth 2, width 5. -/
theorem test_row_parameters :
    seen (step { finalWith .parse .indexed 2 with palSeen := true, pal := List.replicate 4 ⟨0, 0, 0⟩ })
      (fun t => (t.phase, t.bpp, t.rowbytes)) = some (.done, 1, 2) := by decide

/-- 42_assembler.md R172: five entries at depth 2 are PaletteTooLong, cause 20. -/
theorem test_palette_too_long :
    errorOf (step { finalWith .decode .indexed 2 with palSeen := true, pal := List.replicate 5 ⟨0, 0, 0⟩ })
      = some (true, 20, 0, 45) := by decide

/-- 43_decompressor.md R186: the call, for a decompressor that answers one byte. -/
theorem test_inflate_call :
    seen (stepWith (fun _ => .ok [7]) { finalWith .decode .rgb 8 with phase := .inflate }) (fun t => (t.phase, t.fLen, t.fbuf.read 0))
      = some (.defilter, 1, some 7) := by decide

/-! ## From reset -/

/-- Each table word, placed by `withFetchWord`, is what the step after reset runs. -/
theorem test_fetch_word_sig :
    nextOf (step (State.reset.withFetchWord 64 0x89504E470D0A1A0A))
      = some { State.reset.withFetchWord 64 0x89504E470D0A1A0A with phase := .chunks, feCursor := 8 } := by decide

theorem test_fetch_word_chunk :
    errorOf (step (State.reset.withFetchWord 32 0x67414D41)) = errorOf (exec (.gama []) (State.reset.withFetchWord 32 0x67414D41))
    ∧ errorOf (step (State.reset.withFetchWord 32 0x67414D41)) = some (true, 8, 0x67414D41, 8) := by decide

theorem test_fetch_word_scanline :
    seen (step (State.reset.withFetchWord 8 4)) (fun t => (t.phase, t.dfFtype, t.dfRow)) = some (.defilter, .paeth, 1) := by
  decide

/-- 40_framing.md R120: the command DECODE after reset. -/
theorem test_decode_command :
    seen (step { State.reset with host := [.writeReg 0x00 1] }) (fun t => (t.phase, t.cmdLatch)) = some (.sig, .decode) := by decide

/-- 60_exceptions.md R231: what the host reads after a signature error. -/
theorem test_error_registers : [0x04, 0x08, 0x0C, 0x10, 0x14].map (fun o => readOffset o failed) = [0x1027, 1, 1, 0, 0] := by decide

/-- 70_reset_and_hazards.md R261, 42_assembler.md R175: a PARSE result after CLEAR. -/
theorem test_result_after_clear :
    seen (step { doneWith .parse with bpp := 3, host := [.writeReg 0x00 4] })
      (fun t => (t.resultOf .parse == some (.parsed t.imageInfo 3 1 [7]), readZbuf 0 t, readObuf 0 t))
      = some (true, some 7, some 9) := by decide

/-- 10_state.md R34: `BPP` keeps four bits. -/
theorem test_bpp_register :
    seen (step { State.reset with host := [.writeReg 0x3C 0x1F] }) (readOffset 0x3C) = some 0xF := by decide

/-! ## Witnesses -/

theorem witness_DecodeOfEncodeIsTheInstruction :
    WellFormed (.bkgd [2]) = true ∧ Config.ztxtTag ∉ fixedTags ∧ (0x7A545874#32) ∉ fixedTags := by decide

theorem witness_DecodedBytesBeginWithTheEncoding :
    decode Config.ztxtTag .chunk [0, 0, 0, 1, 0x62, 0x4B, 0x47, 0x44, 2, 1, 2, 3, 4] = .ok (.bkgd [2])
    ∧ decode Config.ztxtTag .scanline [4, 9] = .ok .rowPaeth ∧ decode Config.ztxtTag .sig signatureBytes = .ok .sig := by decide

/-- A chunk of twelve bytes that ends at `IN_LEN`; its first eight bytes already decode. -/
theorem witness_StepRunsTheDecodedInstruction_chunk :
    let s := midWith [0, 0, 0, 0, 0x67, 0x41, 0x4D, 0x41, 1, 2, 3, 4]
    s.phase = .chunks ∧ s.host = [] ∧ s.inMem.readBytes s.feCursor.toNat 8 = some [0, 0, 0, 0, 0x67, 0x41, 0x4D, 0x41]
    ∧ s.feCursor.toNat + 8 ≤ s.inLen.toNat
    ∧ decode Config.ztxtTag .chunk [0, 0, 0, 0, 0x67, 0x41, 0x4D, 0x41] = .ok (.gama []) := by decide

theorem witness_StepRunsTheDecodedInstruction_row :
    rows2Next.phase = .defilter ∧ rows2Next.host = [] ∧ rows2Next.dfCol = 0 ∧ rows2Next.dfRow ≠ rows2Next.height
    ∧ rows2Next.dfFpos.toNat + 1 + rows2Next.rowbytes.toNat = rows2Next.fLen.toNat
    ∧ rows2Next.fbuf.read rows2Next.dfFpos.toNat = some 2 ∧ decode Config.ztxtTag .scanline [2] = .ok .rowUp := by decide

theorem witness_StepRunsTheDecodedInstruction_byte :
    (atByte .sub 1 2 3 4).phase = .defilter ∧ (atByte .sub 1 2 3 4).host = [] ∧ (atByte .sub 1 2 3 4).dfCol ≠ 0 := by decide

theorem witness_StepRunsTheDecodedInstruction_sig : (sigWith []).phase = .sig ∧ (sigWith []).host = [] := by decide

theorem witness_StepRunsTheDecodedInstruction_pass :
    let s : State := { rows2 with host := [.pass, .hardReset] }
    s.host = .pass :: [.hardReset] ∧ seen (stepWith (fun _ => .err) s) State.dfCol = some 1 := by decide

/-- One byte short of a frame header. -/
theorem witness_FrameErrorsInOrder_header :
    (mid 7).phase = .chunks ∧ (mid 7).host = [] ∧ (mid 7).inLen.toNat < (mid 7).feCursor.toNat + 8 := by decide

/-- One byte short of the payload. -/
theorem witness_FrameErrorsInOrder_payload :
    let hdr : List Byte := [0, 0, 0, 1, 0x49, 0x44, 0x41, 0x54]
    let s := midWith hdr
    s.phase = .chunks ∧ s.host = [] ∧ s.feCursor.toNat + 8 ≤ s.inLen.toNat ∧ s.inMem.readBytes s.feCursor.toNat 8 = some hdr
    ∧ s.inLen.toNat < s.feCursor.toNat + 8 + (chunkLength hdr).toNat := by decide

/-- An unknown tag, its payload just there. -/
theorem witness_FrameErrorsInOrder_tag :
    let hdr : List Byte := [0, 0, 0, 1, 0x7A, 0x54, 0x58, 0x74]
    let s := midWith (hdr ++ [9])
    s.feCursor.toNat + 8 + (chunkLength hdr).toNat = s.inLen.toNat ∧ s.inMem.readBytes s.feCursor.toNat 8 = some hdr
    ∧ s.inMem.readBytes (s.feCursor.toNat + 8) (chunkLength hdr).toNat = some [9]
    ∧ chunkTag hdr ∉ fixedTags ∧ chunkTag hdr ≠ Config.ztxtTag := by decide

theorem witness_SignatureCheck_short : (sigWith [1, 2, 3, 4, 5, 6, 7]).inLen.toNat < 8 := by decide

theorem witness_SignatureCheck_match :
    8 ≤ (sigWith signatureBytes).inLen.toNat ∧ (sigWith signatureBytes).inMem.readBytes 0 8
      = some [0x89#8, 0x50#8, 0x4E#8, 0x47#8, 0x0D#8, 0x0A#8, 0x1A#8, 0x0A#8] := by decide

theorem witness_SignatureCheck_mismatch :
    let bs : List Byte := [0x89#8, 0x50#8, 0x4E#8, 0x47#8, 0x0D#8, 0x0A#8, 0x1A#8, 0x0B#8]
    8 ≤ (sigWith bs).inLen.toNat ∧ (sigWith bs).inMem.readBytes 0 8 = some bs
    ∧ bs ≠ [0x89#8, 0x50#8, 0x4E#8, 0x47#8, 0x0D#8, 0x0A#8, 0x1A#8, 0x0A#8] := by decide

/-- The checksum ends at `IN_LEN`. -/
theorem witness_IhdrStoresTheHeader :
    (6#8, ColorModel.rgbAlpha) ∈ [(0#8, ColorModel.greyscale), (2#8, ColorModel.rgb), (3#8, ColorModel.indexed),
      (4#8, ColorModel.greyAlpha), (6#8, ColorModel.rgbAlpha)]
    ∧ ({ mid 25 with hdrSeen := false } : State).hdrSeen = false
    ∧ ({ mid 25 with hdrSeen := false } : State).checksumPresent 13 ∧ ¬({ mid 24 with hdrSeen := false } : State).checksumPresent 13 := by
  decide

theorem witness_IhdrErrors :
    (List.replicate 12 (0#8)).length ≠ 13 ∧ (List.replicate 14 (0#8)).length ≠ 13
    ∧ (List.replicate 13 (1#8)).length = 13 ∧ (List.replicate 13 (1#8)).getD 9 0 ∉ [0#8, 2#8, 3#8, 4#8, 6#8]
    ∧ (List.replicate 13 (6#8)).getD 9 0 ∈ [0#8, 2#8, 3#8, 4#8, 6#8] ∧ (mid 25).checksumPresent 13 ∧ (mid 25).hdrSeen = true := by
  decide

theorem witness_PlteStoresThePalette :
    (mid 12).hdrSeen = true ∧ (mid 12).palSeen = false ∧ (mid 12).bkgdSeen = false
    ∧ (mid 12).checksumPresent (3 * ([] : List PalEntry).length) ∧ (mid 15).checksumPresent (3 * [PalEntry.mk 1 2 3].length) := by
  decide

theorem witness_PlteErrors :
    [1#8].length % 3 ≠ 0 ∧ ([] : List Byte).length % 3 = 0
    ∧ ({ mid 12 with palSeen := true } : State).hdrSeen = true ∧ ({ mid 12 with palSeen := true } : State).checksumPresent 0
    ∧ ({ mid 12 with palSeen := true } : State).palSeen = true
    ∧ ({ mid 12 with bkgdSeen := true } : State).palSeen = false ∧ ({ mid 12 with bkgdSeen := true } : State).bkgdSeen = true := by
  decide

theorem witness_IdatAppendsToZbuf :
    (mid 14).hdrSeen = true ∧ (mid 14).checksumPresent [1#8, 2#8].length ∧ (mid 14).zlen.toNat + [1#8, 2#8].length < 2 ^ 64
    ∧ ({ mid 14 with zlen := BitVec.ofNat 64 (2 ^ 64 - 3) } : State).zlen.toNat + [1#8, 2#8].length < 2 ^ 64 := by decide

theorem witness_IendEndsTheChunkWalk :
    (mid 12).hdrSeen = true ∧ (mid 12).checksumPresent 0 ∧ (mid 11).inLen.toNat < (mid 11).feCursor.toNat + 12
    ∧ [0#8] ≠ ([] : List Byte) := by decide

theorem witness_BkgdStoresTheBackground :
    (mid 18).hdrSeen = true ∧ (mid 18).dataSeen = false ∧ ({ mid 13 with colorModel := .indexed } : State).colorModel = .indexed
    ∧ ({ mid 13 with colorModel := .indexed } : State).checksumPresent 1 ∧ (mid 14).colorModel = .greyscale
    ∧ (mid 14).checksumPresent 2 ∧ ({ mid 18 with colorModel := .rgbAlpha } : State).colorModel = .rgbAlpha
    ∧ ({ mid 18 with colorModel := .rgbAlpha } : State).checksumPresent 6 := by decide

theorem witness_BkgdErrors :
    ([] : List Byte).length ∉ [1, 2, 6] ∧ [0#8].length ∈ [1, 2, 6] ∧ (mid 13).hdrSeen = true ∧ (mid 13).checksumPresent 1
    ∧ ({ mid 13 with dataSeen := true } : State).dataSeen = true ∧ (mid 13).dataSeen = false
    ∧ ((mid 13).colorModel, [0#8].length) ∉ [(ColorModel.indexed, 1), (ColorModel.greyscale, 2), (ColorModel.greyAlpha, 2),
        (ColorModel.rgb, 6), (ColorModel.rgbAlpha, 6)] := by decide

/-- An alpha list as long as the palette, and an empty one. -/
theorem witness_TrnsStoresTheTransparency :
    let s : State := { mid 13 with colorModel := .indexed, palSeen := true, pal := [⟨1, 2, 3⟩] }
    s.hdrSeen = true ∧ s.colorModel = .indexed ∧ s.palSeen = true ∧ [9#8].length = s.pal.length ∧ s.checksumPresent 1
    ∧ ([] : List Byte).length ≤ s.pal.length ∧ s.checksumPresent 0
    ∧ (mid 14).colorModel = .greyscale ∧ (mid 14).checksumPresent 2
    ∧ ({ mid 18 with colorModel := .rgb } : State).colorModel = .rgb ∧ ({ mid 18 with colorModel := .rgb } : State).checksumPresent 6 := by
  decide

theorem witness_TrnsErrors :
    let raw : List Byte := [1, 2, 3]
    (mid 15).hdrSeen = true ∧ (mid 15).checksumPresent raw.length
    ∧ ({ mid 15 with colorModel := .rgbAlpha } : State).colorModel = .rgbAlpha
    ∧ ({ mid 15 with colorModel := .indexed } : State).palSeen = false
    ∧ ({ mid 15 with colorModel := .indexed, palSeen := true, pal := [⟨1, 2, 3⟩, ⟨1, 2, 3⟩] } : State).pal.length < raw.length
    ∧ (mid 15).colorModel = .greyscale ∧ raw.length ≠ 2 ∧ raw.length ≠ 6 := by decide

theorem witness_IgnorableChunksOnlyAdvance : (mid 12).hdrSeen = true ∧ (mid 12).checksumPresent ([] : List Byte).length := by decide

theorem witness_HeaderFirstGate :
    let s : State := { mid 13 with hdrSeen := false }
    payloadAccepted (.bkgd [2]) = true ∧ s.hdrSeen = false ∧ s.checksumPresent (Instr.payload (.bkgd [2])).length := by decide

theorem witness_HeaderFirstGate_notHeader (p : List Byte) : Instr.bkgd [2] ≠ .ihdr p := by simp

/-- One checksum byte short, on the End chunk too. -/
theorem witness_MissingChecksumIsAnError :
    payloadAccepted (.iend []) = true ∧ (mid 11).inLen.toNat < (mid 11).feCursor.toNat + 12 + (Instr.payload (.iend [])).length
    ∧ payloadAccepted (.bkgd [2]) = true ∧ (mid 12).inLen.toNat < (mid 12).feCursor.toNat + 12 + (Instr.payload (.bkgd [2])).length := by
  decide

/-- The other IN holds no checksum and no signature. -/
theorem witness_ChunkStepReadsOnlyItsFrame :
    let hdr : List Byte := [0, 0, 0, 0, 0x67, 0x41, 0x4D, 0x41]
    let s := midWith (hdr ++ [1, 2, 3, 4])
    let m := Memory.writeBytes [] 8 hdr
    s.phase = .chunks ∧ s.host = [] ∧ s.inMem.readBytes s.feCursor.toNat 8 = some hdr ∧ m ≠ s.inMem
    ∧ ∀ a, a < s.feCursor.toNat + 8 + (chunkLength hdr).toNat → s.feCursor.toNat ≤ a → m.read a = s.inMem.read a := by decide

theorem witness_CompletedChunkAdvancesTheCursor :
    let s := midWith [0, 0, 0, 0, 0x67, 0x41, 0x4D, 0x41, 1, 2, 3, 4]
    s.phase = .chunks ∧ s.host = [] ∧ seen (step s) (fun t => decide (t.phase = .error)) = some false
    ∧ s.inMem.readBytes s.feCursor.toNat 8 = some [0, 0, 0, 0, 0x67, 0x41, 0x4D, 0x41] := by decide

/-- 40_framing.md R123: the example's length and tag, in a chunk step of the example header. -/
theorem test_latches :
    seen (step { midWith ([0, 0, 0, 0x0D, 0x49, 0x48, 0x44, 0x52] ++ [0, 0, 0, 2, 0, 0, 0, 2, 8, 2, 0, 0, 0] ++ [1, 2, 3, 4]) with
      hdrSeen := false }) (fun t => (t.feLen, t.feTag, t.feCursor)) = some (13, 0x49484452, 33) := by decide

theorem witness_FinalPassAcceptsExactlyLegalImages :
    (finalWith .parse .rgb 8).phase = .final ∧ (finalWith .parse .rgb 8).host = [] ∧ (finalWith .parse .rgb 8).cmdLatch = .parse
    ∧ (finalWith .decode .rgb 7).cmdLatch = .decode := by decide

theorem witness_FinalPassReportsTheFirstFailure_depth :
    (finalWith .decode .greyscale 3).phase = .final ∧ (finalWith .decode .greyscale 3).host = []
    ∧ (finalWith .decode .greyscale 3).bitDepth ∉ legalDepths (finalWith .decode .greyscale 3).colorModel := by decide

theorem witness_FinalPassReportsTheFirstFailure_palette :
    let g : State := { finalWith .decode .greyAlpha 16 with palSeen := true }
    let e : State := { finalWith .decode .indexed 1 with palSeen := true }
    let l : State := { finalWith .decode .indexed 1 with palSeen := true, pal := List.replicate 3 ⟨0, 0, 0⟩ }
    g.bitDepth ∈ legalDepths g.colorModel ∧ g.colorModel = .greyAlpha ∧ g.palSeen = true
    ∧ e.bitDepth ∈ legalDepths e.colorModel ∧ e.colorModel = .indexed ∧ e.pal.length = 0
    ∧ l.bitDepth ∈ legalDepths l.colorModel ∧ l.palSeen = true ∧ 2 ^ l.bitDepth.toNat < l.pal.length := by decide

theorem witness_FinalPassDerivesTheRowParameters :
    let s := finalWith .decode .rgbAlpha 16
    s.phase = .final ∧ s.host = [] ∧ s.cmdLatch = .decode ∧ s.legalImage
    ∧ (s.colorModel, 4) ∈ [(ColorModel.greyscale, 1), (ColorModel.indexed, 1), (ColorModel.greyAlpha, 2),
      (ColorModel.rgb, 3), (ColorModel.rgbAlpha, 4)] := by decide

theorem witness_InflateCallOutcome :
    let s : State := { finalWith .decode .rgb 8 with phase := .inflate, zlen := 1, zbuf := [(0, 7)] }
    s.phase = .inflate ∧ s.host = [] ∧ s.zbuf.readBytes 0 s.zlen.toNat = some [7]
    ∧ (fun _ => InflateResult.err : List Byte → InflateResult) [7] = .err
    ∧ (fun z => InflateResult.ok z : List Byte → InflateResult) [7] = .ok [7] ∧ [7#8].length < 2 ^ 63 := by decide

/-- The premises of the three clauses, each with a tie. -/
theorem witness_PaethPredictorRule :
    paethDist 6 12 10 6 ≤ paethDist 6 12 10 12 ∧ paethDist 6 12 10 6 = paethDist 6 12 10 10
    ∧ ¬(paethDist 12 6 10 12 ≤ paethDist 12 6 10 6) ∧ paethDist 12 6 10 6 = paethDist 12 6 10 10
    ∧ ¬(paethDist 0 10 5 0 ≤ paethDist 0 10 5 5) ∧ ¬(paethDist 0 10 5 10 ≤ paethDist 0 10 5 5) := by decide

theorem witness_NeighbourFetch : fetchNeighbours (atByte .paeth 1 2 3 4) = .ok ⟨1, 2, 3, 4⟩ := by rfl

/-- The left edge and the first row. -/
theorem witness_NeighbourFetch_edges :
    fetchNeighbours { atByte .paeth 1 2 3 4 with dfCol := 1 } = .ok ⟨0, 0, 4, 0⟩
    ∧ fetchNeighbours { rows2 with dfCol := 1 } = .ok ⟨5, 0, 0, 0⟩ := by exact ⟨rfl, rfl⟩

theorem witness_RowStartEntersTheRow :
    rows2.dfCol = 0 ∧ rows2.rowbytes ≠ 0 ∧ ({ rows2 with rowbytes := 0 } : State).dfCol = 0
    ∧ ({ rows2 with rowbytes := 0 } : State).rowbytes = 0 := by decide

theorem witness_RowStartErrorsAndFinish :
    rows2.phase = .defilter ∧ rows2.host = [] ∧ rows2.dfCol = 0 ∧ rows2.dfRow ≠ rows2.height
    ∧ ({ rows2 with fLen := 2 } : State).fLen.toNat < rows2.dfFpos.toNat + 1 + rows2.rowbytes.toNat
    ∧ ({ rows2 with fLen := 3, fbuf := [(0, 5)] } : State).fLen.toNat = rows2.dfFpos.toNat + 1 + rows2.rowbytes.toNat
    ∧ ({ rows2 with fLen := 3, fbuf := [(0, 5)] } : State).fbuf.read rows2.dfFpos.toNat = some 5 ∧ 4 < (5#8).toNat := by decide

theorem witness_RowStartErrorsAndFinish_end :
    let s : State := { rows2Next with dfRow := 2, dfFpos := 6, dfOpos := 4 }
    let x : State := { s with fLen := 7, excessReject := true }
    s.dfRow = s.height ∧ s.dfCol = 0 ∧ s.phase = .defilter ∧ s.host = [] ∧ ¬(s.dfFpos.toNat < s.fLen.toNat ∧ s.excessReject = true)
    ∧ x.dfRow = x.height ∧ x.dfFpos.toNat < x.fLen.toNat ∧ x.excessReject = true := by decide

/-- For NoneCopiesTheByte, AvgAddsTheFlooredMean and PaethAddsThePaethPredictor. -/
theorem witness_byteStep : (atByte .average 1 2 3 4).dfCol ≠ 0 ∧ fetchNeighbours (atByte .average 1 2 3 4) = .ok ⟨1, 2, 3, 4⟩ :=
  ⟨by decide, rfl⟩

/-- `c` = `BPP`. -/
theorem witness_SubAddsTheLeftByte :
    ({ atByte .sub 1 2 3 4 with dfCol := 1 } : State).dfCol ≠ 0
    ∧ fetchNeighbours { atByte .sub 1 2 3 4 with dfCol := 1 } = .ok ⟨0, 0, 4, 0⟩
    ∧ ({ atByte .sub 1 2 3 4 with dfCol := 1 } : State).dfCol.toNat ≤ ({ atByte .sub 1 2 3 4 with dfCol := 1 } : State).bpp.toNat :=
  ⟨by decide, rfl, by decide⟩

theorem witness_UpAddsTheByteAbove :
    ({ rows2 with dfCol := 1 } : State).dfCol ≠ 0 ∧ fetchNeighbours { rows2 with dfCol := 1 } = .ok ⟨5, 0, 0, 0⟩
    ∧ ({ rows2 with dfCol := 1 } : State).dfRow = 0 := ⟨by decide, rfl, rfl⟩

/-! ### States of the invariant -/

theorem rows2_inv : rows2.Inv := by constructor <;> decide

theorem rows2Next_inv : rows2Next.Inv := by constructor <;> decide

theorem mid_inv : (midWith [0, 0, 0, 0, 0x67, 0x41, 0x4D, 0x41, 1, 2, 3, 4]).Inv := by constructor <;> decide

theorem done_inv : (doneWith .decode).Inv ∧ (doneWith .parse).Inv ∧ (doneWith .defilter).Inv := by
  refine ⟨?_, ?_, ?_⟩ <;> constructor <;> decide

theorem failed_inv : failed.Inv := by constructor <;> decide

theorem witness_RowStepsComputeTheRowFunction_first :
    rows2.Inv ∧ rows2.phase = .defilter ∧ rows2.host = [] ∧ rows2.dfCol = 0 ∧ rows2.dfRow ≠ rows2.height
    ∧ rows2.dfFpos.toNat + 1 + rows2.rowbytes.toNat ≤ rows2.fLen.toNat
    ∧ rows2.fbuf.read rows2.dfFpos.toNat = some FilterType.sub.byte
    ∧ rows2.filteredRow = some [5, 6] ∧ rows2.rowAbove = some [0, 0] := ⟨rows2_inv, by decide⟩

theorem witness_RowStepsComputeTheRowFunction_next :
    rows2Next.Inv ∧ rows2Next.phase = .defilter ∧ rows2Next.host = [] ∧ rows2Next.dfCol = 0 ∧ rows2Next.dfRow ≠ rows2Next.height
    ∧ rows2Next.dfFpos.toNat + 1 + rows2Next.rowbytes.toNat ≤ rows2Next.fLen.toNat
    ∧ rows2Next.fbuf.read rows2Next.dfFpos.toNat = some FilterType.up.byte
    ∧ rows2Next.filteredRow = some [7, 8] ∧ rows2Next.rowAbove = some [5, 11] := ⟨rows2Next_inv, by decide⟩

theorem witness_DefilterRunReconstructsTheImage :
    let rows := [(FilterType.sub, [5#8, 6#8]), (FilterType.up, [7#8, 8#8])]
    rows2.Inv ∧ rows2.phase = .defilter ∧ rows2.host = [] ∧ rows2.dfRow = 0 ∧ rows2.dfCol = 0 ∧ rows2.excessReject = false
    ∧ rows2.height.toNat = rows.length ∧ (∀ r ∈ rows, r.2.length = rows2.rowbytes.toNat)
    ∧ rows2.height.toNat * (1 + rows2.rowbytes.toNat) ≤ rows2.fLen.toNat
    ∧ rows2.fbuf.readBytes 0 (rows2.height.toNat * (1 + rows2.rowbytes.toNat)) = some (encodeRows rows) := ⟨rows2_inv, by decide⟩

theorem witness_FinishedRunHasItsWholeOutput :
    let s : State := { rows2Next with dfRow := 2, dfFpos := 6, dfOpos := 4, obuf := Memory.ofBytes [5, 11, 12, 19] }
    s.Inv ∧ s.phase = .defilter ∧ s.host = [] ∧ seen (step s) State.phase = some .done :=
  ⟨by constructor <;> decide, by decide⟩

theorem witness_DefiltererIgnoresTheImageDescription : rows2.phase = .defilter ∧ rows2.host = [] := by decide

theorem witness_FailingStepWritesOnlyTheErrorRegisters :
    (sigWith []).phase.busy = true ∧ (sigWith []).host = [] ∧ nextOf (step (sigWith [])) = some failed ∧ failed.phase = .error
    ∧ errorOf (step (mid 0)) = some (true, 2, 0, 8) ∧ errorOf (step (finalWith .decode .rgb 7)) = some (true, 17, 0, 45)
    ∧ errorOf (step { rows2Next with fLen := 3 }) = some (true, 22, 0, 1) := by decide

theorem witness_FailingStepWritesOnlyTheErrorRegisters_codes :
    (Cause.signatureMismatch, 1, 1) ∈ errorCodes ∧ (Cause.invalidDefilterParameter, 2, 24) ∈ errorCodes
    ∧ (Cause.inflateFailed, 3, 1) ∈ errorCodes := by decide

theorem witness_OnlyClearOrResetLeavesError :
    failed.phase = .error
    ∧ seen (stepWith (fun _ => .err) { failed with host := [.writeReg 0 4] }) State.phase = some .idle
    ∧ seen (stepWith (fun _ => .err) { failed with host := [.hardReset] }) State.phase = some .idle := by decide

theorem witness_ClearReturnsToIdle :
    (doneWith .parse).phase = .done ∧ failed.phase = .error ∧ (5#32).getLsbD 2 = true
    ∧ ({ failed with host := [.writeReg 0 5] } : State).host = .writeReg 0x00 5 :: [] := by decide

theorem witness_RegisterWritesOutsideIdleAreIgnored :
    rows2.phase ≠ .idle ∧ rows2.phase.busy = true ∧ failed.phase ≠ .idle ∧ 0x34 ≠ 0 ∧ (3#32).getLsbD 2 = false
    ∧ ({ rows2 with host := [.writeReg 0 4] } : State).host = .writeReg 0 4 :: [] := by decide

theorem witness_DecodeAndParseStartARun :
    let s : State := { State.reset with inLen := BitVec.ofNat 64 (2 ^ 63 - 1), host := [.writeReg 0x00 0xFFFFFFFB] }
    s.phase = .idle ∧ s.inLen.toNat < 2 ^ 63 ∧ s.host = .writeReg 0x00 0xFFFFFFFB :: []
    ∧ ((0xFFFFFFFB#32).extractLsb' 0 2, Command.parse) ∈ [(1#2, Command.decode), (3#2, Command.parse)]
    ∧ ((1#32).extractLsb' 0 2, Command.decode) ∈ [(1#2, Command.decode), (3#2, Command.parse)]
    ∧ (0xFFFFFFFB#32).getLsbD 2 = false := by decide

/-- The bounds of a legal set, and the values just outside. -/
theorem witness_DefilterCommandStartsARun :
    let s : State := { State.reset with host := [.writeReg 0x00 0xA] }
    s.phase = .idle ∧ s.host = .writeReg 0x00 0xA#32 :: [] ∧ (0xA#32).extractLsb' 0 2 = 2 ∧ (0xA#32).getLsbD 2 = false
    ∧ (let t : State := { s with bpp := 8, rowbytes := BitVec.ofNat 64 (2 ^ 63 - 1), fLen := BitVec.ofNat 64 (2 ^ 63 - 1) }
       1 ≤ t.bpp.toNat ∧ t.bpp.toNat ≤ 8 ∧ t.rowbytes.toNat < 2 ^ 63 ∧ t.fLen.toNat < 2 ^ 63)
    ∧ ¬(1 ≤ s.bpp.toNat) ∧ ¬(({ s with bpp := 9 } : State).bpp.toNat ≤ 8)
    ∧ ¬(({ s with fLen := BitVec.ofNat 64 (2 ^ 63) } : State).fLen.toNat < 2 ^ 63) := by decide

theorem witness_PackedWordsShowTheirFields :
    State.reset.bkgdKind ≠ .rgb ∧ ({ State.reset with bkgdKind := .rgb } : State).bkgdKind = .rgb ∧ State.reset.trnsKind ≠ .rgbKey
    ∧ ({ State.reset with trnsKind := .rgbKey } : State).trnsKind = .rgbKey
    ∧ ({ State.reset with pal := [⟨1, 2, 3⟩] } : State).pal[0]? = some ⟨1, 2, 3⟩
    ∧ ({ State.reset with trnsAlpha := [9] } : State).trnsAlpha[0]? = some 9 ∧ State.reset.pal.length < 2 ^ 32 := by decide

theorem witness_PackedWordsShowTheirFields_alphaList :
    let s : State := { mid 0 with
      colorModel := .indexed, palSeen := true, pal := [⟨1, 2, 3⟩], trnsSeen := true, trnsKind := .alphaList, trnsAlpha := [9] }
    s.Inv ∧ s.trnsKind = .alphaList := ⟨by constructor <;> decide, rfl⟩

theorem witness_WrittenRegisterReadsBack :
    State.reset.phase = .idle ∧ rwMask .bpp = some 0xF
    ∧ ({ State.reset with host := [.writeReg Reg.bpp.offset 0xFF] } : State).host = .writeReg Reg.bpp.offset 0xFF :: []
    ∧ Reg.height ≠ Reg.bpp := by decide

/-- A read-only register, an offset past the map, one that is no multiple of 4; CLEAR, and no command. -/
theorem witness_WrittenRegisterReadsBack_ignored :
    State.reset.phase = .idle ∧ Reg.oLenHi.offset ∉ writableOffsets ∧ 0x78 ∉ writableOffsets ∧ 0x1D ∉ writableOffsets
    ∧ ({ State.reset with host := [.writeReg 0x78 1] } : State).host = .writeReg 0x78 1 :: []
    ∧ (5#32).getLsbD 2 = true ∧ (8#32).extractLsb' 0 2 = 0 := by decide

theorem witness_HardResetFromAnyState :
    ({ rows2 with host := [.hardReset, .pass] } : State).host = .hardReset :: [.pass] := by decide

theorem witness_HostPlacesBytesBetweenRuns :
    (doneWith .parse).phase.busy = false ∧ rows2.phase.busy = true
    ∧ ({ rows2 with host := [.writeIn 0 7] } : State).host = .writeIn 0 7 :: []
    ∧ ({ doneWith .parse with host := [.writeFbuf 0 7] } : State).host = .writeFbuf 0 7 :: [] := by decide

theorem witness_StopsByName :
    (8 ≤ ({ sigWith [] with inLen := 8 } : State).inLen.toNat ∧ ({ sigWith [] with inLen := 8 } : State).inMem.readBytes 0 8 = none)
    ∧ ((mid 8).phase = .chunks ∧ (mid 8).host = [] ∧ (mid 8).feCursor.toNat + 8 ≤ (mid 8).inLen.toNat
      ∧ (mid 8).inMem.readBytes (mid 8).feCursor.toNat 8 = none)
    ∧ (let s : State := { finalWith .decode .rgb 8 with phase := .inflate, zlen := 1 }
       s.phase = .inflate ∧ s.host = [] ∧ s.zbuf.readBytes 0 s.zlen.toNat = none)
    ∧ (let s := finalWith .defilter .rgb 8
       s.phase = .final ∧ s.host = [] ∧ s.legalImage ∧ s.cmdLatch ≠ .decode ∧ s.cmdLatch ≠ .parse)
    ∧ (let s : State := { State.reset with inLen := BitVec.ofNat 64 (2 ^ 63), host := [.writeReg 0x00 1] }
       s.phase = .idle ∧ 2 ^ 63 ≤ s.inLen.toNat ∧ s.host = .writeReg 0x00 1#32 :: [] ∧ (1#32).extractLsb' 0 2 = 1
       ∧ (1#32).getLsbD 2 = false) := by decide

/-- A payload of one byte that is not there, and a filter-type byte that is not there. -/
theorem witness_StopsByName_payload :
    let hdr : List Byte := [0, 0, 0, 1, 0x49, 0x44, 0x41, 0x54]
    let s : State := { midWith hdr with inLen := 17 }
    let r : State := { rows2 with fbuf := [] }
    s.phase = .chunks ∧ s.host = [] ∧ s.inMem.readBytes s.feCursor.toNat 8 = some hdr
    ∧ s.feCursor.toNat + 8 + (chunkLength hdr).toNat = s.inLen.toNat
    ∧ s.inMem.readBytes (s.feCursor.toNat + 8) (chunkLength hdr).toNat = none
    ∧ r.phase = .defilter ∧ r.host = [] ∧ r.dfCol = 0 ∧ r.dfRow ≠ r.height
    ∧ r.dfFpos.toNat + 1 + r.rowbytes.toNat ≤ r.fLen.toNat ∧ r.fbuf.read r.dfFpos.toNat = none := by decide

theorem witness_StopsByName_neighbours :
    ({ rows2 with dfCol := 1, fbuf := [] } : State).dfCol ≠ 0
    ∧ fetchNeighbours { rows2 with dfCol := 1, fbuf := [] } = .error .fbuf
    ∧ fetchNeighbours { atByte .up 1 2 3 4 with obuf := [] } = .error .obuf := ⟨by decide, rfl, rfl⟩

theorem witness_StopsByName_inflate :
    let s : State := { finalWith .decode .rgb 8 with phase := .inflate }
    let f : List Byte := List.replicate (2 ^ 63) 0
    s.phase = .inflate ∧ s.host = [] ∧ s.zbuf.readBytes 0 s.zlen.toNat = some []
    ∧ (fun _ => InflateResult.ok f : List Byte → InflateResult) [] = .ok f ∧ 2 ^ 63 ≤ f.length := by
  refine ⟨by decide, by decide, by decide, rfl, ?_⟩
  rw [List.length_replicate]

theorem witness_ResultIsReadableExactlyWhenDone :
    ((doneWith .decode).Inv ∧ (doneWith .decode).phase = .done) ∧ ((doneWith .parse).Inv ∧ (doneWith .parse).cmdLatch = .parse)
    ∧ (doneWith .defilter).Inv ∧ (failed.Inv ∧ failed.phase ≠ .done) :=
  ⟨⟨done_inv.1, by decide⟩, ⟨done_inv.2.1, by decide⟩, done_inv.2.2, failed_inv, by decide⟩

theorem witness_ResultIsReadableExactlyWhenDone_afterClear :
    let s : State := { doneWith .parse with host := [.writeReg 0x00 4] }
    s.Inv ∧ s.phase = .done ∧ s.host = .writeReg 0x00 4 :: [] ∧ (4#32).getLsbD 2 = true :=
  ⟨by constructor <;> decide, by decide⟩

/-- Each kind of transparency and background, with a palette stored. -/
theorem witness_ResultIsReadableExactlyWhenDone_stores :
    let a : State := { doneWith .decode with
      hdrSeen := true, colorModel := .indexed, palSeen := true, pal := [⟨1, 2, 3⟩], trnsSeen := true, trnsKind := .alphaList
      trnsAlpha := [9], bkgdSeen := true, bkgdKind := .paletteIndex }
    let g : State := { doneWith .decode with
      hdrSeen := true, trnsSeen := true, trnsKind := .greyKey, bkgdSeen := true, bkgdKind := .grey }
    let r : State := { doneWith .decode with
      hdrSeen := true, colorModel := .rgb, trnsSeen := true, trnsKind := .rgbKey, bkgdSeen := true, bkgdKind := .rgb }
    a.Inv ∧ g.Inv ∧ r.Inv := by
  refine ⟨?_, ?_, ?_⟩ <;> constructor <;> decide

theorem witness_PhaseMovesAsTheTableSays_waiting :
    (doneWith .parse).phase.busy = false ∧ (doneWith .parse).host = [] ∧ failed.phase.busy = false ∧ failed.host = []
    ∧ State.reset.phase.busy = false ∧ State.reset.host = [] := by decide

theorem witness_PhaseMovesAsTheTableSays :
    seen (stepWith (fun _ => .err) rows2) State.phase = some .defilter
    ∧ seen (stepWith (fun _ => .err) { rows2 with host := [.hardReset] }) State.phase = some .idle := by decide

/-- For FlagsAreNeverClearedDuringARun and SpacesHaveOneWriterEach. -/
theorem witness_blockStep :
    let s : State := { midWith [0, 0, 0, 0, 0x67, 0x41, 0x4D, 0x41, 1, 2, 3, 4] with
      palSeen := true, bkgdSeen := true, dataSeen := true, trnsSeen := true }
    s.phase.busy = true ∧ s.host = [] ∧ seen (step s) State.phase = some .chunks ∧ s.hdrSeen = true
    ∧ s.phase ≠ .inflate ∧ s.phase ≠ .defilter ∧ rows2.phase ≠ .chunks ∧ seen (step rows2) State.phase = some .defilter := by decide

/-- Two states that differ, in a dead latch alone. -/
theorem witness_DeadLatchesInfluenceNothing :
    ({ rows2 with dfX := 7, feTag := 9 } : State).forgetLatches = rows2.forgetLatches
    ∧ ({ rows2 with dfX := 7, feTag := 9 } : State) ≠ rows2 := by decide

theorem witness_EveryStepKeepsTheInvariant :
    rows2.Inv ∧ seen (stepWith (fun _ => .err) rows2) State.dfCol = some 1 := ⟨rows2_inv, by decide⟩

/-- For NoBlockStepFaults and EveryRunEnds, in phase DEFILTER. -/
theorem witness_run_defilter : rows2.Inv ∧ rows2.inputsPresent ∧ rows2.host = [] ∧ rows2.phase = .defilter :=
  ⟨rows2_inv, by decide⟩

/-- For NoBlockStepFaults and EveryRunEnds, in phase CHUNKS: IN is wholly there. -/
theorem witness_run_chunks :
    let s : State := { midWith [0, 0, 0, 0, 0x67, 0x41, 0x4D, 0x41, 1, 2, 3, 4] with
      inMem := Memory.ofBytes (signatureBytes ++ [0, 0, 0, 0, 0x67, 0x41, 0x4D, 0x41, 1, 2, 3, 4]) }
    s.Inv ∧ s.inputsPresent ∧ s.host = [] ∧ s.phase = .chunks := ⟨by constructor <;> decide, by decide⟩

end Sys2Proof.Tests
end

section
/-! PROOFS. The framing engine (40_framing.md): what a completed chunk step has done, and O21. -/

namespace Sys2Proof.Machine

/-! ## The frame of a completed chunk step -/

/-- A chunk step that raises no error ran the chunk instruction at the cursor to its end (40_framing.md R129). -/
theorem step_chunks_completed {s t : State} (hp : s.phase = .chunks) (hh : s.host = []) (h : step s = .next t)
    (ht : t.phase ≠ .error) :
    ∃ i r u, fetchChunk s = .run i ∧ s.checksumPresent i.payload.length
      ∧ assemble r (advanceFrame (i.tag32 Config.ztxtTag) i.payload.length s) = .ok u ∧ t = endOfStream u := by
  have hstep : afterFetch (fetchChunk s) s = .next t := by
    rw [step_eq, stepWith_block _ hh] at h
    simpa only [blockStep, hp] using h
  rcases fetchChunk_cases s with ⟨c, tag, -, hf⟩ | hf | ⟨i, hf, hi, -, -⟩ <;> rw [hf] at hstep
  · cases hstep
    exact absurd (raise_phase ..) ht
  · cases hstep
  · rw [afterFetch_run] at hstep
    rcases exec_chunk_cases hi s with ⟨c, -, he⟩ | ⟨r, u, -, hc, ha, he⟩ <;> rw [he] at hstep <;> cases hstep
    · exact absurd (raise_phase ..) ht
    · exact ⟨i, r, u, hf, hc, ha, rfl⟩

/-- The assembler and the end of stream leave the framing registers and `IN_LEN` alone (40_framing.md R127, R128). -/
theorem endOfStream_assemble_framing {r : ChunkRecord} {s t : State} (h : assemble r s = .ok t) :
    (endOfStream t).feLen = s.feLen ∧ (endOfStream t).feTag = s.feTag ∧ (endOfStream t).feCursor = s.feCursor
      ∧ (endOfStream t).inLen = s.inLen := by
  obtain ⟨-, htr⟩ := assemble_ok h
  rw [endOfStream_frame, transition_frame htr]
  exact ⟨rfl, rfl, rfl, rfl⟩

/-- Where the checksum is there, the cursor's new value fits its register (40_framing.md R126, R127). -/
theorem advanceFrame_feCursor_toNat {s : State} {len : Nat} (tag : Word32) (h : s.checksumPresent len) :
    (advanceFrame tag len s).feCursor.toNat = s.feCursor.toNat + 12 + len :=
  (BitVec.toNat_ofNat ..).trans (Nat.mod_eq_of_lt (Nat.lt_of_le_of_lt h s.inLen.isLt))

/-- A chunk step that raises no error latches the length and the tag of the header at the cursor and moves the cursor
past the chunk, which lies inside IN (40_framing.md R123, R126, R127). -/
theorem step_chunks_latches {s t : State} (hp : s.phase = .chunks) (hh : s.host = []) (h : step s = .next t)
    (ht : t.phase ≠ .error) :
    ∃ hdr, s.inMem.readBytes s.feCursor.toNat 8 = some hdr ∧ s.checksumPresent (chunkLength hdr).toNat
      ∧ t.feLen = chunkLength hdr ∧ t.feTag = chunkTag hdr
      ∧ t.feCursor.toNat = s.feCursor.toNat + 12 + (chunkLength hdr).toNat ∧ t.inLen = s.inLen := by
  obtain ⟨i, r, u, hf, hc, ha, rfl⟩ := step_chunks_completed hp hh h ht
  obtain ⟨hdr, hread, -, htag, hlen⟩ := fetchChunk_run hf
  rw [htag, hlen] at ha
  rw [hlen] at hc
  obtain ⟨hfeLen, hfeTag, hcursor, hinLen⟩ := endOfStream_assemble_framing ha
  refine ⟨hdr, hread, hc, hfeLen.trans ?_, hfeTag, ?_, hinLen⟩
  · exact (BitVec.ofNat_toNat ..).trans (BitVec.setWidth_eq _)
  · rw [hcursor, advanceFrame_feCursor_toNat _ hc]

/-- Settles O21: the header that the fetch read is the one the statement names, and the checksum's presence bounds the
cursor. -/
theorem completedChunkAdvancesTheCursor : Obligations.CompletedChunkAdvancesTheCursor := by
  intro s t hp hh h ht
  obtain ⟨hdr, hread, hc, hlen, htag, hcursor, hin⟩ := step_chunks_latches hp hh h ht
  refine ⟨by rw [hcursor, hlen], by rw [hcursor, hin]; exact hc, hin, ?_⟩
  intro l0 l1 l2 l3 t0 t1 t2 t3 hbytes
  cases hread.symm.trans hbytes
  exact ⟨hlen, htag, hcursor⟩

end Sys2Proof.Machine
end

section
/-! PROOFS. The chunk decoders (41_chunk_decoders.md): what IEND accepts and does, and O12. -/

namespace Sys2Proof.Machine

/-! ## IEND -/

/-- IEND decodes a payload that is not empty to an error (41_chunk_decoders.md R143). -/
theorem decodeIend_of_ne_nil {p : List Byte} (h : p ≠ []) : decodeIend p = .error .endNotEmpty :=
  if_pos (mt List.length_eq_zero_iff.mp h)

/-- After a header, an End record sets its flag (42_assembler.md R160, R167). -/
theorem assemble_endOfImage {s : State} (h : s.hdrSeen = true) :
    assemble .endOfImage s = .ok { s with endSeen := true } := by
  rw [assemble_after_header rfl h]
  rfl

/-- The chunk step where the decoder accepts, the checksum is there and the assembler accepts (40_framing.md R129). -/
theorem chunkBody_completed {tag : Word32} {dec : List Byte → Except Cause ChunkRecord} {p : List Byte}
    {r : ChunkRecord} {s t : State} (hdec : dec p = .ok r) (hsum : s.checksumPresent p.length)
    (hasm : assemble r (advanceFrame tag p.length s) = .ok t) : chunkBody tag dec p s = .next (endOfStream t) := by
  rw [chunkBody_assemble hdec hsum, hasm]

/-- Settles O12: an empty payload decodes to the End record, whose flag ends the stream; each of the other two clauses
is the check of the shared chunk step that fails first. -/
theorem iendEndsTheChunkWalk : Obligations.IendEndsTheChunkWalk := by
  intro s p
  have exec_iend (q : List Byte) : exec (.iend q) s = chunkBody 0x49454E44#32 decodeIend q s := exec_chunk rfl s
  have decode_nil : decodeIend [] = .ok .endOfImage := rfl
  refine ⟨fun hhdr hsum => ?completed, fun hshort => ?noChecksum, fun hp => ?notEmpty⟩
  case completed =>
    rw [exec_iend, chunkBody_completed decode_nil hsum (assemble_endOfImage hhdr), endOfStream_of_seen rfl]
    rfl
  case noChecksum => rw [exec_iend, chunkBody_no_checksum decode_nil hshort]
  case notEmpty => rw [exec_iend, chunkBody_decoder_error (decodeIend_of_ne_nil hp)]

end Sys2Proof.Machine
end

section
/-! PROOFS. The Inflate call (43_decompressor.md): what each answer of the decompressor does, and O25. -/

namespace Sys2Proof.Machine

/-! ## The Inflate call -/

/-- In phase INFLATE, without a move of the host, the step is the Inflate call (43_decompressor.md R186). -/
theorem stepWith_inflate (inflate : List Byte → InflateResult) {s : State} (hp : s.phase = .inflate)
    (hh : s.host = []) : stepWith inflate s = inflateCall inflate s := by
  rw [stepWith_block inflate hh]
  simp only [blockStep, hp]

/-- Where the decompressor rejects ZBUF, the call raises its one error (43_decompressor.md R187). -/
theorem inflateCall_err {inflate : List Byte → InflateResult} {s : State} {z : List Byte}
    (hz : s.zbuf.readBytes 0 s.zlen.toNat = some z) (hi : inflate z = .err) :
    inflateCall inflate s = .next (raise .inflateFailed 0#32 0#64 s) := by
  simp only [inflateCall, hz, hi]

/-- Where the decompressor answers with bytes that `F_LEN` can hold, they become FBUF and the defilterer is entered
(43_decompressor.md R186, 44_defilter.md R201). -/
theorem inflateCall_ok {inflate : List Byte → InflateResult} {s : State} {z f : List Byte}
    (hz : s.zbuf.readBytes 0 s.zlen.toNat = some z) (hi : inflate z = .ok f) (hf : f.length < Config.lengthBound) :
    inflateCall inflate s = .next (defilterInit { s with
      fbuf := Memory.ofBytes f, fLen := BitVec.ofNat 64 f.length, phase := .defilter }) := by
  simp only [inflateCall, hz, hi, if_neg (Nat.not_le_of_lt hf)]

/-- Settles O25: the step is the Inflate call, and the decompressor's answer on the whole of ZBUF selects its branch; a
result shorter than 2^63 bytes has a length that fits `F_LEN`. -/
theorem inflateCallOutcome : Obligations.InflateCallOutcome := by
  intro inflate s z hp hh hz
  rw [stepWith_inflate inflate hp hh]
  refine ⟨fun hi => inflateCall_err hz hi, fun f hi hf => ?_⟩
  have hlen : (BitVec.ofNat 64 f.length).toNat = f.length :=
    (BitVec.toNat_ofNat ..).trans (Nat.mod_eq_of_lt (by omega))
  exact ⟨_, inflateCall_ok hz hi hf, Memory.read_ofBytes f, hlen, rfl⟩

end Sys2Proof.Machine
end

section
/-! PROOFS. The defilterer (44_defilter.md): the Paeth predictor, what a byte step fetches and leaves, and O26, O31, O32,
O33. -/

namespace Sys2Proof.Machine

/-! ## The Paeth predictor -/

section Paeth
variable {a b c : Byte}

/-- Left, where its distance is at most both others (44_defilter.md R209). -/
theorem paethPredictor_left
    (h : paethDist a b c a ≤ paethDist a b c b ∧ paethDist a b c a ≤ paethDist a b c c) : paethPredictor a b c = a :=
  if_pos h

/-- Above, where left fails and above's distance is at most that of upper-left (44_defilter.md R209). -/
theorem paethPredictor_above (h : ¬(paethDist a b c a ≤ paethDist a b c b ∧ paethDist a b c a ≤ paethDist a b c c))
    (hb : paethDist a b c b ≤ paethDist a b c c) : paethPredictor a b c = b :=
  (if_neg h).trans (if_pos hb)

/-- Upper-left, where both others fail (44_defilter.md R209). -/
theorem paethPredictor_upperLeft
    (h : ¬(paethDist a b c a ≤ paethDist a b c b ∧ paethDist a b c a ≤ paethDist a b c c))
    (hb : ¬paethDist a b c b ≤ paethDist a b c c) : paethPredictor a b c = c :=
  (if_neg h).trans (if_neg hb)

/-- The predictor answers one of its operands (44_defilter.md R209). -/
theorem paethPredictor_mem (a b c : Byte) :
    paethPredictor a b c = a ∨ paethPredictor a b c = b ∨ paethPredictor a b c = c := by
  by_cases h : paethDist a b c a ≤ paethDist a b c b ∧ paethDist a b c a ≤ paethDist a b c c
  · exact .inl (paethPredictor_left h)
  by_cases hb : paethDist a b c b ≤ paethDist a b c c
  · exact .inr (.inl (paethPredictor_above h hb))
  · exact .inr (.inr (paethPredictor_upperLeft h hb))

/-- Three equal bytes give that byte. -/
@[simp] theorem paethPredictor_self (a : Byte) : paethPredictor a a a = a := by
  rcases paethPredictor_mem a a a with h | h | h <;> exact h

end Paeth

/-- Settles O26: the three branches are the predictor's own, their distances compared as naturals; the distances and the
ranges are linear arithmetic on three bytes. -/
theorem paethPredictorRule : Obligations.PaethPredictorRule := by
  intro a b c p pa pb pc
  have le_ab : paethDist a b c a ≤ paethDist a b c b ↔ pa ≤ pb := Int.ofNat_le
  have le_ac : paethDist a b c a ≤ paethDist a b c c ↔ pa ≤ pc := Int.ofNat_le
  have le_bc : paethDist a b c b ≤ paethDist a b c c ↔ pb ≤ pc := Int.ofNat_le
  have ha := a.isLt
  have hb := b.isLt
  have hc := c.isLt
  rw [← le_ab, ← le_ac, ← le_bc]
  refine ⟨paethPredictor_left, fun ⟨h, hb⟩ => paethPredictor_above h hb,
    fun ⟨h, hb⟩ => paethPredictor_upperLeft h hb, ?_, ?_, ?_, ?_, ?_, ?_, ?_, ?_, paethPredictor_mem a b c,
    paethPredictor_self a⟩ <;> omega

/-! ## The fetch of a byte step -/

/-- The fetch succeeds with the bytes at the four places, each neighbour 0 where absent (44_defilter.md R203). -/
theorem fetchNeighbours_ok {s : State} {n : Neighbours} :
    fetchNeighbours s = .ok n ↔
      s.fbuf.read s.filteredAddr = some n.x
      ∧ neighbour s.hasLeft s.obuf (s.rawAddr - s.bpp.toNat) = some n.a
      ∧ neighbour s.hasAbove s.obuf (s.rawAddr - s.rowbytes.toNat) = some n.b
      ∧ neighbour (s.hasAbove && s.hasLeft) s.obuf (s.rawAddr - s.rowbytes.toNat - s.bpp.toNat) = some n.c := by
  constructor
  · intro h
    unfold fetchNeighbours at h
    split at h
    · cases h
    next hx =>
    split at h
    · cases h
    next ha =>
    split at h
    · cases h
    next hb =>
    split at h
    · cases h
    next hc =>
    cases h
    exact ⟨hx, ha, hb, hc⟩
  · rintro ⟨hx, ha, hb, hc⟩
    simp only [fetchNeighbours, hx, ha, hb, hc]

/-- In the first `BPP` bytes of a row left is 0 (44_defilter.md R203). -/
theorem fetchNeighbours_left_absent {s : State} {n : Neighbours} (hn : fetchNeighbours s = .ok n)
    (h : s.dfCol.toNat ≤ s.bpp.toNat) : n.a = 0 := by
  obtain ⟨-, ha, -, -⟩ := fetchNeighbours_ok.mp hn
  have hleft : s.hasLeft = false := decide_eq_false (Nat.not_lt.mpr h)
  rw [hleft] at ha
  exact (Option.some.inj ha).symm

/-- In row 0 above is 0 (44_defilter.md R203). -/
theorem fetchNeighbours_above_absent {s : State} {n : Neighbours} (hn : fetchNeighbours s = .ok n)
    (h : s.dfRow = 0) : n.b = 0 := by
  obtain ⟨-, -, hb, -⟩ := fetchNeighbours_ok.mp hn
  have habove : s.hasAbove = false := by rw [State.hasAbove, h]; rfl
  rw [habove] at hb
  exact (Option.some.inj hb).symm

/-! ## What a byte step leaves -/

/-- Write-back leaves what a byte step is to leave (44_defilter.md R210, R211). -/
theorem writeBack_byteStepResult (n : Neighbours) (pr : Byte) (s : State) :
    ByteStepResult s (writeBack n pr s) n pr := by
  have hframe := writeBack_frame n pr s
  have hobuf : (writeBack n pr s).obuf = Memory.write s.obuf s.rawAddr (n.x + pr) := congrArg State.obuf hframe
  constructor
  case raw => rw [hobuf, Memory.read_write_same]
  case others => exact fun a ha => by rw [hobuf, Memory.read_write_other _ _ ha.symm]
  case inRow =>
    intro h
    rw [writeBack_inRow h]
    have hcol : s.dfCol.toNat + 1 < 2 ^ 64 := Nat.lt_of_le_of_lt h s.rowbytes.isLt
    exact ⟨(BitVec.toNat_ofNat ..).trans (Nat.mod_eq_of_lt hcol), rfl, rfl, rfl⟩
  case rowEnd =>
    intro h
    rw [writeBack_rowEnd (Nat.not_lt.mpr h)]
    simp [BitVec.ofNat_add]
  case latches => rw [hframe]; exact ⟨rfl, rfl, rfl, rfl, rfl⟩
  case frame => rw [hframe]

/-- Write-back leaves the Paeth intermediates. -/
theorem writeBack_paethLatches (n : Neighbours) (pr : Byte) (s : State) :
    (writeBack n pr s).dfP = s.dfP ∧ (writeBack n pr s).dfPa = s.dfPa ∧ (writeBack n pr s).dfPb = s.dfPb
      ∧ (writeBack n pr s).dfPc = s.dfPc := by
  rw [writeBack_frame]
  exact ⟨rfl, rfl, rfl, rfl⟩

/-- A byte step of a scanline instruction writes back the predictor of its filter type (44_defilter.md R203 to R210). -/
theorem exec_scanline_byte (ft : FilterType) {s : State} {n : Neighbours} (hcol : s.dfCol ≠ 0)
    (hn : fetchNeighbours s = .ok n) : exec ft.instr s = .next (writeBack n (ft.ofNeighbours n) (ft.latch n s)) := by
  rw [exec_scanline, scanline_byte (fun h => hcol (BitVec.eq_of_toNat_eq h)) hn]

/-- A byte step of a filter type that latches nothing besides leaves what a byte step is to leave, and the Paeth
intermediates (44_defilter.md R204 to R207, R210; log 10). -/
theorem exec_scanline_byteStepResult {ft : FilterType} {s : State} {n : Neighbours} (hlatch : ft.latch n s = s)
    (hcol : s.dfCol ≠ 0) (hn : fetchNeighbours s = .ok n) :
    ∃ t, exec ft.instr s = .next t ∧ ByteStepResult s t n (ft.ofNeighbours n)
      ∧ t.dfP = s.dfP ∧ t.dfPa = s.dfPa ∧ t.dfPb = s.dfPb ∧ t.dfPc = s.dfPc := by
  refine ⟨writeBack n (ft.ofNeighbours n) s, ?_, writeBack_byteStepResult .., writeBack_paethLatches ..⟩
  rw [exec_scanline_byte ft hcol hn, hlatch]

/-- Where the predictor is 0, the raw byte is the filtered byte (44_defilter.md R210). -/
theorem ByteStepResult.raw_of_zero {s t : State} {n : Neighbours} {pr : Byte} (h : ByteStepResult s t n pr)
    (hpr : pr = 0) : t.obuf.read s.rawAddr = some n.x := by
  rw [h.raw, hpr]
  exact congrArg some (BitVec.add_zero n.x)

/-! ## The instructions -/

/-- Settles O31: the byte step of the filter type NONE, whose predictor is 0. -/
theorem noneCopiesTheByte : Obligations.NoneCopiesTheByte := by
  intro s n hcol hn
  obtain ⟨t, ht, hres, hpaeth⟩ := exec_scanline_byteStepResult (ft := .noFilter) rfl hcol hn
  exact ⟨t, ht, hres, hres.raw_of_zero rfl, hpaeth⟩

/-- Settles O32: the byte step of the filter type SUB, whose predictor, left, is 0 at the left edge. -/
theorem subAddsTheLeftByte : Obligations.SubAddsTheLeftByte := by
  intro s n hcol hn
  obtain ⟨t, ht, hres, hpaeth⟩ := exec_scanline_byteStepResult (ft := .sub) rfl hcol hn
  exact ⟨t, ht, hres, fun h => hres.raw_of_zero (fetchNeighbours_left_absent hn h), hpaeth⟩

/-- Settles O33: the byte step of the filter type UP, whose predictor, above, is 0 in row 0. -/
theorem upAddsTheByteAbove : Obligations.UpAddsTheByteAbove := by
  intro s n hcol hn
  obtain ⟨t, ht, hres, hpaeth⟩ := exec_scanline_byteStepResult (ft := .up) rfl hcol hn
  exact ⟨t, ht, hres, fun h => hres.raw_of_zero (fetchNeighbours_above_absent hn h), hpaeth⟩

end Sys2Proof.Machine
end

section
/-! PROOFS. The decoder and the encoder (30_encoding.md): each inverts the other, and O1, O2, O3. -/

namespace Sys2Proof

/-! ## Chunks -/

/-- Bytes that begin with a frame whose length field is its payload's length decode to what the tag selects
(30_encoding.md R91 to R93). -/
theorem decodeChunk_frame {ztxt l t : Word32} {p : List Byte} {i : Instr} (hl : l.toNat = p.length)
    (hi : instrOfTag ztxt t p = some i) (rest : List Byte) :
    decodeChunk ztxt (bytes32 l ++ bytes32 t ++ (p ++ rest)) = .ok i := by
  have hdrop : (bytes32 l ++ bytes32 t ++ (p ++ rest)).drop 8 = p ++ rest := rfl
  rw [decodeChunk_ok, chunkLength_frame, chunkTag_frame, hdrop, hl, List.take_left]
  refine ⟨?_, hi⟩
  simp only [List.length_append, bytes32_length]
  omega

/-- A well-formed instruction's payload length fits the length field (30_encoding.md R92). -/
theorem lengthField_toNat {i : Instr} (h : WellFormed i = true) :
    (BitVec.ofNat 32 i.payload.length).toNat = i.payload.length :=
  (BitVec.toNat_ofNat ..).trans (Nat.mod_eq_of_lt (of_decide_eq_true h))

/-- Settles O2: the signature and the filter-type byte are compared as they are; a chunk's frame carries the length and
the tag that the decoder reads back. -/
theorem decodeOfEncodeIsTheInstruction : Obligations.DecodeOfEncodeIsTheInstruction := by
  intro ztxt crc i rest hwf hz
  cases hf : i.format with
  | sig =>
    cases i <;> cases hf
    rfl
  | chunk =>
    have hframe : encodeWith ztxt crc i ++ rest = bytes32 (BitVec.ofNat 32 i.payload.length)
        ++ bytes32 (i.tag32 ztxt) ++ (i.payload ++ (bytes32 crc ++ rest)) := by
      simp only [encodeWith, hf, encodeFrame, List.append_assoc]
    rw [hframe]
    exact decodeChunk_frame (lengthField_toNat hwf) (instrOfTag_tag32 hz i hf) _
  | scanline =>
    obtain ⟨ft, rfl⟩ := Machine.scanline_instr hf
    cases ft <;> rfl

/-! ## Bytes that decode -/

/-- Bytes that decode in format SIG begin with the signature (30_encoding.md R90). -/
theorem decodeSig_ok {bs : List Byte} {i : Instr} (h : decodeSig bs = .ok i) :
    i = .sig ∧ bs = signatureBytes ++ bs.drop 8 := by
  unfold decodeSig at h
  split at h
  · next hs =>
    cases h
    exact ⟨rfl, by rw [← hs, List.take_append_drop]⟩
  · cases h

/-- Bytes that decode in format SCANLINE begin with the filter-type byte (30_encoding.md R100). -/
theorem decodeScanline_ok {bs : List Byte} {i : Instr} (h : decodeScanline bs = .ok i) :
    i.format = .scanline ∧ ∃ rest, bs = i.filterByte :: rest := by
  cases bs with
  | nil => cases h
  | cons b rest =>
    simp only [decodeScanline] at h
    split at h
    · next j hj =>
      cases h
      obtain ⟨hf, hb⟩ := instrOfFilterByte_some hj
      exact ⟨hf, rest, by rw [hb]⟩
    · cases h

/-- Bytes that decode in format CHUNK begin with the frame of the instruction, which is well formed (30_encoding.md R91
to R93). -/
theorem decodeChunk_ok_frame {ztxt : Word32} {bs : List Byte} {i : Instr} (h : decodeChunk ztxt bs = .ok i) :
    i.format = .chunk ∧ WellFormed i = true ∧ ∃ rest, bs = encodeFrame ztxt i ++ rest := by
  obtain ⟨hlen, hi⟩ := decodeChunk_ok.mp h
  obtain ⟨hf, htag, hpayload⟩ := instrOfTag_some hi
  have hpl : i.payload.length = (chunkLength bs).toNat := by
    rw [hpayload, List.length_take, List.length_drop]
    omega
  refine ⟨hf, decide_eq_true (hpl ▸ (chunkLength bs).isLt), (bs.drop 8).drop (chunkLength bs).toNat, ?_⟩
  rw [encodeFrame, htag, hpl, BitVec.ofNat_toNat, BitVec.setWidth_eq, hpayload, List.append_assoc,
    List.take_append_drop]
  exact frame_header (by omega)

/-- Settles O3: each format's decoder checks what the encoder writes. -/
theorem decodedBytesBeginWithTheEncoding : Obligations.DecodedBytesBeginWithTheEncoding := by
  intro ztxt f bs i h
  cases f with
  | sig =>
    obtain ⟨rfl, hbs⟩ := decodeSig_ok h
    exact ⟨rfl, rfl, _, hbs⟩
  | chunk => exact decodeChunk_ok_frame h
  | scanline =>
    obtain ⟨hf, rest, rfl⟩ := decodeScanline_ok h
    obtain ⟨ft, rfl⟩ := Machine.scanline_instr hf
    cases ft <;> exact ⟨rfl, rfl, rest, rfl⟩

/-- Settles O1: nine fixed words. -/
theorem writtenOutWordsDecode : Obligations.WrittenOutWordsDecode := by
  refine ⟨rfl, ?_, ?_, ?_, rfl, rfl, rfl, rfl, rfl⟩ <;> decide

end Sys2Proof
end

section
/-! PROOFS. A step of the block: which operation each phase runs (10_state.md R21), what it leaves (20_memory.md), and
O53, O54, O55. -/

namespace Sys2Proof.Machine

/-! ## The step of each phase -/

section Phases
variable (inflate : List Byte → InflateResult) {s : State}

theorem stepWith_sig (hp : s.phase = .sig) (hh : s.host = []) : stepWith inflate s = exec .sig s := by
  rw [stepWith_block inflate hh]
  simp only [blockStep, hp]

theorem stepWith_chunks (hp : s.phase = .chunks) (hh : s.host = []) :
    stepWith inflate s = afterFetch (fetchChunk s) s := by
  rw [stepWith_block inflate hh]
  simp only [blockStep, hp]

theorem stepWith_final (hp : s.phase = .final) (hh : s.host = []) : stepWith inflate s = finalPass s := by
  rw [stepWith_block inflate hh]
  simp only [blockStep, hp]

theorem stepWith_rowStart (hp : s.phase = .defilter) (hh : s.host = []) (hcol : s.dfCol = 0) :
    stepWith inflate s = afterFetch (fetchRow s) s := by
  have hcol' : s.dfCol.toNat = 0 := by rw [hcol]; rfl
  rw [stepWith_block inflate hh]
  simp only [blockStep, hp, fetchScanline, hcol', if_true]

theorem stepWith_inRow (hp : s.phase = .defilter) (hh : s.host = []) (hcol : s.dfCol ≠ 0) :
    stepWith inflate s = exec s.dfFtype.instr s := by
  have hcol' : s.dfCol.toNat ≠ 0 := fun h => hcol (BitVec.eq_of_toNat_eq h)
  rw [stepWith_block inflate hh]
  simp only [blockStep, hp, fetchScanline, hcol', if_false, afterFetch_run]

end Phases

/-! ## What each move may change -/

/-- A row start changes the position and the latched filter type alone (44_defilter.md R202). -/
theorem rowStart_frame (ft : FilterType) (s : State) :
    rowStart ft s = { s with
      dfFtype := ft, dfRow := (rowStart ft s).dfRow, dfCol := (rowStart ft s).dfCol
      dfFpos := (rowStart ft s).dfFpos, dfOpos := (rowStart ft s).dfOpos } := by
  unfold rowStart
  split <;> rfl

/-- What a filter type latches besides has no part in the write-back (44_defilter.md R210; log 10). -/
theorem writeBack_latch (ft : FilterType) (n : Neighbours) (pr : Byte) (s : State) :
    writeBack n pr (ft.latch n s) = { writeBack n pr s with
      dfP := (ft.latch n s).dfP, dfPa := (ft.latch n s).dfPa, dfPb := (ft.latch n s).dfPb
      dfPc := (ft.latch n s).dfPc } := by
  rw [FilterType.latch_frame]
  unfold writeBack
  dsimp only
  split <;> rfl

/-- A byte step changes the latches, the byte of OBUF and the position alone (44_defilter.md R210). -/
theorem byteStep_frame (ft : FilterType) (n : Neighbours) (pr : Byte) (s : State) :
    writeBack n pr (ft.latch n s) = { s with
      dfX := n.x, dfA := n.a, dfB := n.b, dfC := n.c, dfPr := pr
      dfP := (ft.latch n s).dfP, dfPa := (ft.latch n s).dfPa, dfPb := (ft.latch n s).dfPb
      dfPc := (ft.latch n s).dfPc
      obuf := Memory.write s.obuf s.rawAddr (n.x + pr)
      dfRow := (writeBack n pr s).dfRow, dfCol := (writeBack n pr s).dfCol
      dfFpos := (writeBack n pr s).dfFpos, dfOpos := (writeBack n pr s).dfOpos } := by
  rw [writeBack_latch, writeBack_frame]

/-- A completed chunk step leaves the spaces IN, FBUF and OBUF, their lengths, the policy, the defilterer and the host's
moves alone (40_framing.md R127, R128; 42_assembler.md R161 to R167). -/
theorem chunkStep_frame {tag : Word32} {len : Nat} {r : ChunkRecord} {s t : State}
    (h : assemble r (advanceFrame tag len s) = .ok t) :
    (endOfStream t).inMem = s.inMem ∧ (endOfStream t).inLen = s.inLen ∧ (endOfStream t).excessReject = s.excessReject
      ∧ (endOfStream t).host = s.host ∧ (endOfStream t).fbuf = s.fbuf ∧ (endOfStream t).fLen = s.fLen
      ∧ (endOfStream t).obuf = s.obuf ∧ (endOfStream t).oLen = s.oLen := by
  obtain ⟨-, htr⟩ := assemble_ok h
  rw [endOfStream_frame, transition_frame htr]
  exact ⟨rfl, rfl, rfl, rfl, rfl, rfl, rfl, rfl⟩

/-- The end of stream leaves the phase or goes to FINAL (40_framing.md R128). -/
theorem endOfStream_phase (s : State) :
    (s.endSeen = true ∧ (endOfStream s).phase = .final) ∨ (s.endSeen = false ∧ (endOfStream s).phase = s.phase) := by
  cases h : s.endSeen
  · exact .inr ⟨rfl, by rw [endOfStream_of_not_seen h]⟩
  · exact .inl ⟨rfl, by rw [endOfStream_of_seen h]⟩

/-- The assembler leaves the phase alone. -/
theorem assemble_phase {tag : Word32} {len : Nat} {r : ChunkRecord} {s t : State}
    (h : assemble r (advanceFrame tag len s) = .ok t) : t.phase = s.phase := by
  rw [transition_frame (assemble_ok h).2]
  rfl

/-! ## Spaces -/

/-- Which step may change which space (20_memory.md R60 to R63, R77). -/
theorem BlockMove.spaces {s t : State} (h : BlockMove s t) :
    t.inMem = s.inMem ∧ t.inLen = s.inLen ∧ t.excessReject = s.excessReject ∧ t.host = s.host
      ∧ (s.phase ≠ .inflate → t.fbuf = s.fbuf ∧ t.fLen = s.fLen)
      ∧ (s.phase ≠ .chunks → t.zbuf = s.zbuf ∧ t.zlen = s.zlen)
      ∧ (s.phase ≠ .defilter → t.obuf = s.obuf ∧ t.oLen = s.oLen) := by
  cases h with
  | wait => exact ⟨rfl, rfl, rfl, rfl, fun _ => ⟨rfl, rfl⟩, fun _ => ⟨rfl, rfl⟩, fun _ => ⟨rfl, rfl⟩⟩
  | failed => exact ⟨rfl, rfl, rfl, rfl, fun _ => ⟨rfl, rfl⟩, fun _ => ⟨rfl, rfl⟩, fun _ => ⟨rfl, rfl⟩⟩
  | signature => exact ⟨rfl, rfl, rfl, rfl, fun _ => ⟨rfl, rfl⟩, fun _ => ⟨rfl, rfl⟩, fun _ => ⟨rfl, rfl⟩⟩
  | parsed => exact ⟨rfl, rfl, rfl, rfl, fun _ => ⟨rfl, rfl⟩, fun _ => ⟨rfl, rfl⟩, fun _ => ⟨rfl, rfl⟩⟩
  | described => exact ⟨rfl, rfl, rfl, rfl, fun _ => ⟨rfl, rfl⟩, fun _ => ⟨rfl, rfl⟩, fun _ => ⟨rfl, rfl⟩⟩
  | row ft =>
    rw [rowStart_frame]
    exact ⟨rfl, rfl, rfl, rfl, fun _ => ⟨rfl, rfl⟩, fun _ => ⟨rfl, rfl⟩, fun _ => ⟨rfl, rfl⟩⟩
  | chunk i r u hp hf hlen hrec hsum hasm =>
    obtain ⟨hin, hlen, hcfg, hhost, hf, hfl, ho, hol⟩ := chunkStep_frame hasm
    exact ⟨hin, hlen, hcfg, hhost, fun _ => ⟨hf, hfl⟩, fun hn => absurd hp hn, fun _ => ⟨ho, hol⟩⟩
  | inflated f hp =>
    exact ⟨rfl, rfl, rfl, rfl, fun hn => absurd hp hn, fun _ => ⟨rfl, rfl⟩, fun _ => ⟨rfl, rfl⟩⟩
  | byte n hp =>
    rw [byteStep_frame]
    exact ⟨rfl, rfl, rfl, rfl, fun _ => ⟨rfl, rfl⟩, fun _ => ⟨rfl, rfl⟩, fun hn => absurd hp hn⟩
  | finished hp =>
    exact ⟨rfl, rfl, rfl, rfl, fun _ => ⟨rfl, rfl⟩, fun _ => ⟨rfl, rfl⟩, fun hn => absurd hp hn⟩

/-- A step of the block takes no move of the host. -/
theorem BlockMove.host_eq {s t : State} (h : BlockMove s t) : t.host = s.host := by
  obtain ⟨-, -, -, hhost, -⟩ := h.spaces
  exact hhost

/-- Without a move of the host, a step that answers a next state is a move of the block. -/
theorem blockMove_of_stepWith {inflate : List Byte → InflateResult} {s t : State} (hh : s.host = [])
    (h : stepWith inflate s = .next t) : BlockMove s t :=
  blockStep_next (by rwa [stepWith_block inflate hh] at h)

/-- Settles O55: the writers of each space, move by move. -/
theorem spacesHaveOneWriterEach : Obligations.SpacesHaveOneWriterEach := by
  intro s t hh h
  obtain ⟨hin, hlen, hcfg, hhost, hrest⟩ := (blockMove_of_stepWith hh h).spaces
  exact ⟨hin, hlen, hcfg, hhost.trans hh, hrest⟩

/-! ## Flags -/

/-- A move of the block clears no flag (10_state.md R25). -/
theorem BlockMove.flags {s t : State} (h : BlockMove s t) :
    (s.hdrSeen = true → t.hdrSeen = true) ∧ (s.palSeen = true → t.palSeen = true)
      ∧ (s.bkgdSeen = true → t.bkgdSeen = true) ∧ (s.dataSeen = true → t.dataSeen = true)
      ∧ (s.trnsSeen = true → t.trnsSeen = true) ∧ (s.endSeen = true → t.endSeen = true) := by
  cases h with
  | wait => exact ⟨id, id, id, id, id, id⟩
  | failed => exact ⟨id, id, id, id, id, id⟩
  | signature => exact ⟨id, id, id, id, id, id⟩
  | parsed => exact ⟨id, id, id, id, id, id⟩
  | described => exact ⟨id, id, id, id, id, id⟩
  | inflated => exact ⟨id, id, id, id, id, id⟩
  | finished => exact ⟨id, id, id, id, id, id⟩
  | row ft => rw [rowStart_frame]; exact ⟨id, id, id, id, id, id⟩
  | byte n => rw [byteStep_frame]; exact ⟨id, id, id, id, id, id⟩
  | chunk i r u hp hf hlen hrec hsum hasm =>
    have hflags := transition_flags (assemble_ok hasm).2
    rw [endOfStream_frame]
    exact hflags

/-- Settles O54: only transitions of the assembler write flags, and they set them. -/
theorem flagsAreNeverClearedDuringARun : Obligations.FlagsAreNeverClearedDuringARun :=
  fun _ _ _ hh h => (blockMove_of_stepWith hh h).flags

/-! ## Phases -/

/-- Staying is a move of the phase. -/
@[simp] theorem phaseMove_self (p : Phase) : phaseMove p p = true := by cases p <;> rfl

/-- From a busy phase a run can fail (10_state.md R21). -/
theorem phaseMove_error {p : Phase} (h : p.busy = true) : phaseMove p .error = true := by
  revert h
  cases p <;> decide

/-- A move of the block moves the phase along the table (10_state.md R21). -/
theorem BlockMove.phaseMove {s t : State} (h : BlockMove s t) : Machine.phaseMove s.phase t.phase = true := by
  cases h with
  | wait => exact phaseMove_self _
  | failed c tag pos busy => exact phaseMove_error busy
  | signature hp => rw [hp]; rfl
  | parsed hp => rw [hp]; rfl
  | described hp => rw [hp]; rfl
  | inflated f hp => rw [hp]; rfl
  | finished hp => rw [hp]; rfl
  | row ft => rw [rowStart_frame]; exact phaseMove_self _
  | byte n => rw [byteStep_frame]; exact phaseMove_self _
  | chunk i r u hp hf hlen hrec hsum hasm =>
    rcases endOfStream_phase u with ⟨-, h⟩ | ⟨-, h⟩
    · rw [h, hp]; rfl
    · rw [h, assemble_phase hasm]; exact phaseMove_self _

/-- The command DEFILTER starts its run or fails (44_defilter.md R201). -/
theorem startDefilter_phase (s : State) :
    (startDefilter s).phase = .defilter ∨ (startDefilter s).phase = .error := by
  rcases startDefilter_cases s with ⟨-, h⟩ | ⟨-, h⟩ <;> rw [h]
  · exact .inr rfl
  · exact .inl rfl

@[simp] theorem setReg_phase (r : Reg) (v : Word32) (s : State) : (setReg r v s).phase = s.phase := by
  rw [setReg_frame]

/-- A move of the host moves the phase along the table, but for hard reset (10_state.md R21; 60_exceptions.md R239). -/
theorem HostEffect.phaseMove {s t : State} {m : HostMove} (h : HostEffect s m t) :
    Machine.phaseMove s.phase t.phase = true ∨ (t.phase = .idle ∧ m = .hardReset) := by
  cases h with
  | reset => exact .inr ⟨rfl, rfl⟩
  | pass _ move => exact .inl move.phaseMove
  | ignored => exact .inl (phaseMove_self _)
  | placedIn => exact .inl (phaseMove_self _)
  | placedFbuf => exact .inl (phaseMove_self _)
  | set r v => rw [setReg_phase]; exact .inl (phaseMove_self _)
  | parse v cmd hp => rw [hp]; exact .inl rfl
  | cleared v hp => rcases hp with hp | hp <;> rw [hp] <;> exact .inl rfl
  | defilter v hp => rcases startDefilter_phase s with h | h <;> rw [h, hp] <;> exact .inl rfl

/-- Where no run is in progress, the block waits (60_exceptions.md R240; log 6). -/
theorem blockStep_wait (inflate : List Byte → InflateResult) {s : State} (h : s.phase.busy = false) :
    blockStep inflate s = .next s := by
  unfold blockStep
  cases hp : s.phase <;> simp_all [Phase.busy]

/-- Settles O53: the block's moves and the host's, each along the table. -/
theorem phaseMovesAsTheTableSays : Obligations.PhaseMovesAsTheTableSays := by
  refine ⟨fun inflate s t h => ?_, fun inflate s hb hh => ?_⟩
  · rcases stepWith_next h with ⟨-, hmove⟩ | ⟨m, ms, hh, heff⟩
    · exact .inl hmove.phaseMove
    · rcases heff.phaseMove with h | ⟨hidle, rfl⟩
      · exact .inl h
      · exact .inr ⟨hidle, ms, hh⟩
  · rw [stepWith_block inflate hh, blockStep_wait inflate hb]

end Sys2Proof.Machine
end

section
/-! PROOFS. The invariant, phase by phase: what each phase demands, that every step keeps it, and O57, O58. -/

namespace Sys2Proof.Machine

/-! ## The invariant, phase by phase -/

/-- The error registers say that no error is recorded (10_state.md R33). -/
def State.NoError (s : State) : Prop := s.errKind = .noError ∧ s.errCause = 0 ∧ s.errTag = 0 ∧ s.errPos = 0

/-- The flags agree with their stores (10_state.md R25 to R28). -/
def State.Stores (s : State) : Prop :=
  (s.hdrSeen = false →
    s.palSeen = false ∧ s.bkgdSeen = false ∧ s.dataSeen = false ∧ s.trnsSeen = false ∧ s.endSeen = false)
  ∧ (s.palSeen = false → s.pal = [])
  ∧ s.pal.length ≤ Config.palMax
  ∧ (s.trnsSeen = true ↔ s.trnsKind ≠ .absent)
  ∧ (s.trnsKind = .alphaList → s.trnsAlpha.length = s.pal.length ∧ s.palSeen = true ∧ s.colorModel = .indexed)
  ∧ (s.bkgdSeen = true ↔ s.bkgdKind ≠ .absent)

/-- The cursor stays inside IN, and the bytes accumulated are bytes passed (20_memory.md R62; 40_framing.md R127). -/
def State.Walk (s : State) : Prop :=
  s.inLen.toNat < Config.lengthBound ∧ s.feCursor.toNat ≤ s.inLen.toNat ∧ s.zlen.toNat ≤ s.feCursor.toNat
  ∧ s.zbuf.covers s.zlen.toNat

/-- The parameters of the defilterer are legal (44_defilter.md R201). -/
def State.Params (s : State) : Prop :=
  1 ≤ s.bpp.toNat ∧ s.bpp.toNat ≤ 8 ∧ s.rowbytes.toNat < Config.lengthBound ∧ s.fLen.toNat < Config.lengthBound

/-- The defilterer's position is one of the image, and the raw bytes before it are written (10_state.md R31;
44_defilter.md R214). -/
def State.Position (s : State) : Prop :=
  s.dfRow.toNat ≤ s.height.toNat
  ∧ s.dfFpos.toNat = s.dfRow.toNat * (1 + s.rowbytes.toNat)
  ∧ s.dfOpos.toNat = s.dfRow.toNat * s.rowbytes.toNat
  ∧ s.dfFpos.toNat ≤ s.fLen.toNat
  ∧ s.dfCol.toNat ≤ s.rowbytes.toNat
  ∧ (s.dfCol.toNat ≠ 0 → s.dfRow.toNat < s.height.toNat ∧ s.dfFpos.toNat + 1 + s.rowbytes.toNat ≤ s.fLen.toNat)
  ∧ s.obuf.covers (s.dfOpos.toNat + (s.dfCol.toNat - 1))

/-- What the invariant demands of a state in phase `p`. -/
def State.Clause (s : State) (p : Phase) : Prop :=
  match p with
  | .idle => s.NoError ∧ s.cmdLatch = .noCommand
  | .sig => s.NoError ∧ (s.cmdLatch = .decode ∨ s.cmdLatch = .parse) ∧ s.Walk ∧ s.feCursor = 0 ∧ s.hdrSeen = false
  | .chunks => s.NoError ∧ (s.cmdLatch = .decode ∨ s.cmdLatch = .parse) ∧ s.Walk ∧ 8 ≤ s.feCursor.toNat
      ∧ s.endSeen = false
  | .final => s.NoError ∧ (s.cmdLatch = .decode ∨ s.cmdLatch = .parse) ∧ s.Walk ∧ s.endSeen = true
  | .inflate => s.NoError ∧ s.cmdLatch = .decode ∧ s.Walk ∧ s.endSeen = true
      ∧ s.legalImage ∧ 1 ≤ s.bpp.toNat ∧ s.bpp.toNat ≤ 8 ∧ s.rowbytes.toNat < Config.lengthBound
  | .defilter => s.NoError ∧ (s.cmdLatch = .decode ∨ s.cmdLatch = .defilter) ∧ s.Params ∧ s.Position
  | .done => s.NoError ∧ s.cmdLatch ≠ .noCommand ∧ (s.cmdLatch = .parse → s.zbuf.covers s.zlen.toNat)
      ∧ (s.cmdLatch ≠ .parse →
        s.oLen.toNat = s.height.toNat * s.rowbytes.toNat ∧ s.obuf.covers s.oLen.toNat)
  | .error => s.cmdLatch ≠ .noCommand ∧ s.errKind ≠ .noError ∧ s.errKind ≠ .ioError

/-! ### The commands that fit a phase (10_state.md R21) -/

theorem latchFits_idle {c : Command} : latchFits .idle c = true ↔ c = .noCommand := by cases c <;> decide

theorem latchFits_sig {c : Command} : latchFits .sig c = true ↔ c = .decode ∨ c = .parse := by cases c <;> decide

theorem latchFits_chunks {c : Command} : latchFits .chunks c = true ↔ c = .decode ∨ c = .parse := by
  cases c <;> decide

theorem latchFits_final {c : Command} : latchFits .final c = true ↔ c = .decode ∨ c = .parse := by
  cases c <;> decide

theorem latchFits_inflate {c : Command} : latchFits .inflate c = true ↔ c = .decode := by cases c <;> decide

theorem latchFits_defilter {c : Command} : latchFits .defilter c = true ↔ c = .decode ∨ c = .defilter := by
  cases c <;> decide

theorem latchFits_done {c : Command} : latchFits .done c = true ↔ c ≠ .noCommand := by cases c <;> decide

theorem latchFits_error {c : Command} : latchFits .error c = true ↔ c ≠ .noCommand := by cases c <;> decide

/-! ### From the invariant to the phase's clause -/

/-- Outside ERROR the invariant says that no error is recorded. -/
theorem State.Inv.noError {s : State} (h : s.Inv) (hp : s.phase ≠ .error) : s.NoError := by
  have hk : s.errKind = .noError := by
    by_contra hk
    exact hp (h.errPhase.mpr hk)
  exact ⟨hk, h.errZero hk⟩

theorem State.Inv.stores {s : State} (h : s.Inv) : s.Stores :=
  ⟨h.hdrFirst, h.palStore, h.palMax, h.trnsStore, h.trnsAlphaLen, h.bkgdStore⟩

/-- In the phases up to the Inflate call the invariant holds the facts of the chunk walk. -/
theorem State.Inv.walk {s : State} (h : s.Inv) (hp : s.phase.framing = true) : s.Walk := by
  obtain ⟨hz, hcov⟩ := h.accumulator hp
  refine ⟨h.inBound hp, ?_, hz, hcov⟩
  cases hs : s.phase <;> rw [hs] at hp
  case sig =>
    obtain ⟨hc, -⟩ := h.sigPhase hs
    simp [hc]
  case chunks => exact h.cursorIn (.inl hs)
  case final => exact h.cursorIn (.inr (.inl hs))
  case inflate => exact h.cursorIn (.inr (.inr hs))
  all_goals cases hp

theorem State.Inv.clause {s : State} (h : s.Inv) {p : Phase} (hp : s.phase = p) : s.Clause p := by
  have hlatch : latchFits p s.cmdLatch = true := hp ▸ h.latch
  have herr : p ≠ .error → s.NoError := fun hne => h.noError (hp ▸ hne)
  have hwalk : p.framing = true → s.Walk := fun hf => h.walk (hp ▸ hf)
  cases p with
  | idle => exact ⟨herr nofun, latchFits_idle.mp hlatch⟩
  | sig =>
    obtain ⟨hc, -, hh⟩ := h.sigPhase hp
    exact ⟨herr nofun, latchFits_sig.mp hlatch, hwalk rfl, hc, hh⟩
  | chunks => exact ⟨herr nofun, latchFits_chunks.mp hlatch, hwalk rfl, h.chunksPhase hp⟩
  | final => exact ⟨herr nofun, latchFits_final.mp hlatch, hwalk rfl, h.finalPhase (.inl hp)⟩
  | inflate =>
    exact ⟨herr nofun, latchFits_inflate.mp hlatch, hwalk rfl, h.finalPhase (.inr hp), h.inflatePhase hp⟩
  | defilter =>
    obtain ⟨hrow, hfpos, hopos, hlen, hcol⟩ := h.dfPosition hp
    exact ⟨herr nofun, latchFits_defilter.mp hlatch, h.dfParams hp,
      hrow, hfpos, hopos, hlen, hcol, h.dfRowInside hp, h.dfWritten hp⟩
  | done => exact ⟨herr nofun, latchFits_done.mp hlatch, h.parsedDone hp, h.outputDone hp⟩
  | error => exact ⟨latchFits_error.mp hlatch, h.errPhase.mp hp, h.errNotIo⟩

/-! ### From the phase's clause to the invariant -/

section Clause
variable {s : State} {p : Phase}

theorem State.Clause.latch (h : s.Clause p) : latchFits p s.cmdLatch = true := by
  cases p with
  | idle => obtain ⟨-, hl⟩ := h; exact latchFits_idle.mpr hl
  | sig => obtain ⟨-, hl, -⟩ := h; exact latchFits_sig.mpr hl
  | chunks => obtain ⟨-, hl, -⟩ := h; exact latchFits_chunks.mpr hl
  | final => obtain ⟨-, hl, -⟩ := h; exact latchFits_final.mpr hl
  | inflate => obtain ⟨-, hl, -⟩ := h; exact latchFits_inflate.mpr hl
  | defilter => obtain ⟨-, hl, -⟩ := h; exact latchFits_defilter.mpr hl
  | done => obtain ⟨-, hl, -⟩ := h; exact latchFits_done.mpr hl
  | error => obtain ⟨hl, -⟩ := h; exact latchFits_error.mpr hl

theorem State.Clause.noError (h : s.Clause p) (hp : p ≠ .error) : s.NoError := by
  cases p
  case error => exact absurd rfl hp
  all_goals exact And.left h

theorem State.Clause.walk (h : s.Clause p) (hp : p.framing = true) : s.Walk := by
  cases p
  case sig => obtain ⟨-, -, hw, -⟩ := h; exact hw
  case chunks => obtain ⟨-, -, hw, -⟩ := h; exact hw
  case final => obtain ⟨-, -, hw, -⟩ := h; exact hw
  case inflate => obtain ⟨-, -, hw, -⟩ := h; exact hw
  all_goals cases hp

/-- An error is recorded exactly in phase ERROR, and it is never IoError (60_exceptions.md R233, R237). -/
theorem State.Clause.errors (h : s.Clause p) :
    (p = .error ↔ s.errKind ≠ .noError) ∧ (s.errKind = .noError → s.errCause = 0 ∧ s.errTag = 0 ∧ s.errPos = 0)
      ∧ s.errKind ≠ .ioError := by
  by_cases hp : p = .error
  · subst hp
    obtain ⟨-, hk, hio⟩ := h
    exact ⟨by simp [hk], fun h => absurd h hk, hio⟩
  · obtain ⟨hk, hz⟩ := h.noError hp
    exact ⟨by simp [hp, hk], fun _ => hz, by simp [hk]⟩

theorem State.Inv.of_clause (hp : s.phase = p) (hspaces : s.spacesWf) (hstores : s.Stores) (h : s.Clause p) :
    s.Inv := by
  subst hp
  obtain ⟨hdrFirst, palStore, palMax, trnsStore, trnsAlphaLen, bkgdStore⟩ := hstores
  obtain ⟨errPhase, errZero, errNotIo⟩ := h.errors
  have clauseAt {q : Phase} (hq : s.phase = q) : s.Clause q := hq ▸ h
  exact {
    spaces := hspaces, latch := h.latch, errPhase, errZero, errNotIo, hdrFirst, palStore, palMax, trnsStore
    trnsAlphaLen, bkgdStore
    inBound := fun hf => (h.walk hf).1
    sigPhase := by
      intro hq
      obtain ⟨-, -, ⟨-, -, hz, -⟩, hc, hh⟩ := clauseAt hq
      exact ⟨hc, BitVec.eq_of_toNat_eq (Nat.le_zero.mp (by simpa [hc] using hz)), hh⟩
    chunksPhase := by
      intro hq
      obtain ⟨-, -, -, hc⟩ := clauseAt hq
      exact hc
    finalPhase := by
      rintro (hq | hq)
      · obtain ⟨-, -, -, he⟩ := clauseAt hq; exact he
      · obtain ⟨-, -, -, he, -⟩ := clauseAt hq; exact he
    cursorIn := by
      intro hq
      have hf : s.phase.framing = true := by rcases hq with hq | hq | hq <;> rw [hq] <;> rfl
      exact (h.walk hf).2.1
    accumulator := fun hf => (h.walk hf).2.2
    parsedDone := by
      intro hq
      obtain ⟨-, -, hz, -⟩ := clauseAt hq
      exact hz
    inflatePhase := by
      intro hq
      obtain ⟨-, -, -, -, hi⟩ := clauseAt hq
      exact hi
    dfParams := by
      intro hq
      obtain ⟨-, -, hparams, -⟩ := clauseAt hq
      exact hparams
    dfPosition := by
      intro hq
      obtain ⟨-, -, -, hrow, hfpos, hopos, hlen, hcol, -⟩ := clauseAt hq
      exact ⟨hrow, hfpos, hopos, hlen, hcol⟩
    dfRowInside := by
      intro hq
      obtain ⟨-, -, -, -, -, -, -, -, hin, -⟩ := clauseAt hq
      exact hin
    dfWritten := by
      intro hq
      obtain ⟨-, -, -, -, -, -, -, -, -, hw⟩ := clauseAt hq
      exact hw
    outputDone := by
      intro hq
      obtain ⟨-, -, -, ho⟩ := clauseAt hq
      exact ho }

end Clause

/-- A state that has seen nothing and stores nothing (70_reset_and_hazards.md R260, R262). -/
theorem State.Stores.of_nothing_seen {s : State} (hpal : s.palSeen = false) (hbkgd : s.bkgdSeen = false)
    (hdata : s.dataSeen = false) (htrns : s.trnsSeen = false) (hend : s.endSeen = false) (hentries : s.pal = [])
    (htkind : s.trnsKind = .absent) (hbkind : s.bkgdKind = .absent) : s.Stores := by
  simp [State.Stores, hpal, hbkgd, hdata, htrns, hend, hentries, htkind, hbkind]

/-- The state after hard reset, whatever moves the host has left (70_reset_and_hazards.md R260). -/
theorem hardReset_inv (s : State) : (hardReset s).Inv :=
  .of_clause (p := .idle) rfl State.reset_spacesWf (.of_nothing_seen rfl rfl rfl rfl rfl rfl rfl rfl)
    ⟨⟨rfl, rfl, rfl, rfl⟩, rfl⟩

/-- Settles O57: the reset state is idle, its stores and spaces are empty. -/
theorem invariantHoldsAtReset : Obligations.InvariantHoldsAtReset := hardReset_inv State.reset

end Sys2Proof.Machine
end

section
/-! PROOFS. Every step keeps the invariant: the chunk walk, the final pass, the defilterer, the host's moves, and O58,
O39. -/

namespace Sys2Proof.Machine

/-! ## The chunk walk -/

/-- A transition keeps flags and stores in agreement (42_assembler.md R161 to R167). The gate let the record through, and
a palette record fits `PAL`. -/
theorem transition_stores {r : ChunkRecord} {s t : State} (h : transition r s = .ok t) (gate : r.isHeader = !s.hdrSeen)
    (hfit : ∀ es, r = .palette es → es.length ≤ Config.palMax) (hs : s.Stores) : t.Stores := by
  obtain ⟨hdrFirst, palStore, palMax, trnsStore, trnsAlphaLen, bkgdStore⟩ := hs
  have after {P : Prop} (hr : r.isHeader = false) (hn : s.hdrSeen = false) : P :=
    absurd (gate.symm.trans hr) (by simp [hn])
  cases r with
  | header w ht d cm il =>
    have hnone := hdrFirst (by simpa [ChunkRecord.isHeader] using gate)
    obtain ⟨-, -, -, htrns, -⟩ := hnone
    have hkind : s.trnsKind = .absent := by
      by_contra hk
      simp [trnsStore.mpr hk] at htrns
    cases h
    exact ⟨nofun, palStore, palMax, trnsStore, fun hk => by simp [hkind] at hk, bkgdStore⟩
  | palette es =>
    simp only [transition, paletteRecord] at h
    split at h
    · cases h
    next hpal =>
    split at h <;> cases h
    refine ⟨after rfl, nofun, hfit es rfl, trnsStore, fun hk => ?_, bkgdStore⟩
    obtain ⟨-, hseen, -⟩ := trnsAlphaLen hk
    exact absurd hseen hpal
  | imageData bs =>
    cases h
    exact ⟨after rfl, palStore, palMax, trnsStore, trnsAlphaLen, bkgdStore⟩
  | endOfImage =>
    cases h
    exact ⟨after rfl, palStore, palMax, trnsStore, trnsAlphaLen, bkgdStore⟩
  | background v =>
    simp only [transition, backgroundRecord] at h
    split at h
    · cases h
    split at h <;> cases h
    cases v <;>
      exact ⟨after rfl, palStore, palMax, trnsStore, trnsAlphaLen, by simp [storeBackground]⟩
  | transparency raw =>
    simp only [transition, transparencyRecord] at h
    split at h
    · cases h
    · cases h
    · next hcm =>
      split at h
      · cases h
      next hpal =>
      split at h <;> cases h
      next hlen =>
      refine ⟨after rfl, palStore, palMax, by simp, fun _ => ⟨?_, by simpa using hpal, hcm⟩,
        bkgdStore⟩
      simp only [List.length_append, List.length_replicate]
      omega
    · split at h <;> cases h
      exact ⟨after rfl, palStore, palMax, by simp, nofun, bkgdStore⟩
    · split at h <;> cases h
      exact ⟨after rfl, palStore, palMax, by simp, nofun, bkgdStore⟩
  | ignorable => cases h; exact ⟨hdrFirst, palStore, palMax, trnsStore, trnsAlphaLen, bkgdStore⟩

/-- A transition leaves ZBUF alone, or appends the record's bytes (42_assembler.md R163). -/
theorem transition_zbuf {r : ChunkRecord} {s t : State} (h : transition r s = .ok t) :
    (t.zbuf = s.zbuf ∧ t.zlen = s.zlen)
      ∨ ∃ bs, r = .imageData bs ∧ t.zbuf = Memory.writeBytes s.zbuf s.zlen.toNat bs
        ∧ t.zlen = BitVec.ofNat 64 (s.zlen.toNat + bs.length) := by
  cases r with
  | imageData bs => cases h; exact .inr ⟨bs, rfl, rfl, rfl⟩
  | background v =>
    simp only [transition, backgroundRecord] at h
    (repeat' split at h) <;> cases h
    cases v <;> exact .inl ⟨rfl, rfl⟩
  | _ =>
    simp only [transition, headerRecord, paletteRecord, endRecord, transparencyRecord] at h
    (repeat' split at h) <;> cases h <;> exact .inl ⟨rfl, rfl⟩

/-- A completed chunk step keeps the walk's facts: the cursor passes the chunk, and at most its payload is appended
(20_memory.md R62; 40_framing.md R126, R127). -/
theorem chunkStep_walk {i : Instr} {r : ChunkRecord} {s t : State} (hs : s.Walk)
    (hrec : decoderOf i i.payload = .ok r) (hsum : s.checksumPresent i.payload.length)
    (h : transition r (advanceFrame (i.tag32 Config.ztxtTag) i.payload.length s) = .ok t) :
    t.Walk ∧ t.feCursor.toNat = s.feCursor.toNat + 12 + i.payload.length := by
  obtain ⟨hin, hcur, hz, hcov⟩ := hs
  have hlen : t.inLen = s.inLen := by rw [transition_frame h]; rfl
  have hcursor : t.feCursor.toNat = s.feCursor.toNat + 12 + i.payload.length := by
    rw [transition_frame h]
    exact advanceFrame_feCursor_toNat (i.tag32 Config.ztxtTag) hsum
  have hfits : s.feCursor.toNat + 12 + i.payload.length ≤ s.inLen.toNat := hsum
  refine ⟨⟨hlen ▸ hin, by rw [hlen]; omega, ?_⟩, hcursor⟩
  rcases transition_zbuf h with ⟨hzbuf, hzlen⟩ | ⟨bs, rfl, hzbuf, hzlen⟩
  · rw [hzbuf, hzlen]
    exact ⟨by rw [advanceFrame_zlen]; omega, hcov⟩
  · have hbs := decoderOf_imageData hrec
    subst hbs
    have hnew : t.zlen.toNat = s.zlen.toNat + i.payload.length := by
      rw [hzlen, advanceFrame_zlen, BitVec.toNat_ofNat, Nat.mod_eq_of_lt (by have := s.inLen.isLt; omega)]
    rw [hnew, hzbuf]
    exact ⟨by omega, Memory.covers_writeBytes _ hcov⟩

/-- A transition keeps the spaces canonical. -/
theorem transition_spacesWf {r : ChunkRecord} {s t : State} (h : transition r s = .ok t) (hs : s.spacesWf) :
    t.spacesWf := by
  obtain ⟨hin, hz, hf, ho⟩ := hs
  have hzbuf : t.zbuf.wf := by
    rcases transition_zbuf h with ⟨hzbuf, -⟩ | ⟨bs, -, hzbuf, -⟩ <;> rw [hzbuf]
    · exact hz
    · exact Memory.wf_writeBytes _ _ hz
  rw [transition_frame h]
  exact ⟨hin, hzbuf, hf, ho⟩

/-- A completed chunk step keeps the invariant (40_framing.md R129). -/
theorem chunkStep_inv {i : Instr} {r : ChunkRecord} {s t : State} (hs : s.Inv) (hp : s.phase = .chunks)
    (hlen : i.payload.length < 2 ^ 32) (hrec : decoderOf i i.payload = .ok r)
    (hsum : s.checksumPresent i.payload.length)
    (hasm : assemble r (advanceFrame (i.tag32 Config.ztxtTag) i.payload.length s) = .ok t) :
    (endOfStream t).Inv := by
  obtain ⟨herr, hcmd, hwalk, hcursor, -⟩ := hs.clause hp
  obtain ⟨gate, htr⟩ := assemble_ok hasm
  obtain ⟨hwalk', hadv⟩ := chunkStep_walk hwalk hrec hsum htr
  have hfit (es : List PalEntry) (hes : r = .palette es) : es.length ≤ Config.palMax := by
    have := decoderOf_palette (hes ▸ hrec)
    unfold Config.palMax
    omega
  have hstores : t.Stores := transition_stores htr gate hfit hs.stores
  have hspaces : t.spacesWf := transition_spacesWf htr hs.spaces
  have herr' : t.NoError := by rw [transition_frame htr]; exact herr
  have hcmd' : t.cmdLatch = .decode ∨ t.cmdLatch = .parse := by rw [transition_frame htr]; exact hcmd
  cases hend : t.endSeen with
  | false =>
    rw [endOfStream_of_not_seen hend]
    exact .of_clause (p := .chunks) ((assemble_phase hasm).trans hp) hspaces hstores
      ⟨herr', hcmd', hwalk', by omega, hend⟩
  | true =>
    rw [endOfStream_of_seen hend]
    exact .of_clause (p := .final) rfl hspaces hstores ⟨herr', hcmd', hwalk', hend⟩

/-! ## The final pass -/

/-- On a legal image `BPP` is the number R174 gives, from 1 to 8 (42_assembler.md R174). -/
theorem deriveRow_bpp_toNat {s : State} (h : s.legalImage) :
    (deriveRow s).bpp.toNat = max 1 (s.bitsPerPixel / 8) ∧ 1 ≤ (deriveRow s).bpp.toNat
      ∧ (deriveRow s).bpp.toNat ≤ 8 := by
  obtain ⟨-, hbits⟩ := bitsPerPixel_range h.1
  have hbpp : (deriveRow s).bpp.toNat = max 1 (s.bitsPerPixel / 8) := by
    rw [deriveRow_bpp, BitVec.toNat_ofNat, Nat.mod_eq_of_lt (by omega)]
  omega

/-- On a legal image `ROWBYTES` is the number R174 gives (42_assembler.md R174). -/
theorem deriveRow_rowbytes_toNat {s : State} (h : s.legalImage) :
    (deriveRow s).rowbytes.toNat = (s.width.toNat * s.bitsPerPixel + 7) / 8
      ∧ (deriveRow s).rowbytes.toNat < Config.lengthBound := by
  obtain ⟨-, hbits⟩ := bitsPerPixel_range h.1
  have hprod : s.width.toNat * s.bitsPerPixel ≤ 2 ^ 32 * 64 := Nat.mul_le_mul s.width.isLt.le hbits
  have hrow : (deriveRow s).rowbytes.toNat = (s.width.toNat * s.bitsPerPixel + 7) / 8 := by
    rw [deriveRow_rowbytes, BitVec.toNat_ofNat, Nat.mod_eq_of_lt (by omega)]
  exact ⟨hrow, by unfold Config.lengthBound; omega⟩

/-! ## The defilterer -/

/-- Where the next row's position fits the registers, `NextRow` is exact (44_defilter.md R211). -/
theorem nextRow_toNat {s : State} (hrow : s.dfRow.toNat < s.height.toNat)
    (hfpos : s.dfFpos.toNat + 1 + s.rowbytes.toNat < 2 ^ 64) (hopos : s.dfOpos.toNat + s.rowbytes.toNat < 2 ^ 64) :
    (nextRow s).dfRow.toNat = s.dfRow.toNat + 1
      ∧ (nextRow s).dfFpos.toNat = s.dfFpos.toNat + 1 + s.rowbytes.toNat
      ∧ (nextRow s).dfOpos.toNat = s.dfOpos.toNat + s.rowbytes.toNat := by
  have hheight := s.height.isLt
  refine ⟨?_, ?_, ?_⟩
  · rw [nextRow_dfRow, BitVec.toNat_ofNat, Nat.mod_eq_of_lt (by omega)]
  · rw [nextRow_dfFpos, BitVec.toNat_ofNat, Nat.mod_eq_of_lt hfpos]
  · rw [nextRow_dfOpos, BitVec.toNat_ofNat, Nat.mod_eq_of_lt hopos]

/-- In a row of the image the output position does not pass the input position (44_defilter.md R211). -/
theorem State.Position.opos_le_fpos {s : State} (h : s.Position) : s.dfOpos.toNat ≤ s.dfFpos.toNat := by
  obtain ⟨-, hfpos, hopos, -⟩ := h
  rw [hfpos, hopos]
  exact Nat.mul_le_mul_left _ (Nat.le_add_left ..)

/-- In a state of the defilterer with a row left, `NextRow` is exact. -/
theorem nextRow_toNat_of_position {s : State} (hpos : s.Position)
    (hrow : s.dfRow.toNat < s.height.toNat) (hlen : s.dfFpos.toNat + 1 + s.rowbytes.toNat ≤ s.fLen.toNat) :
    (nextRow s).dfRow.toNat = s.dfRow.toNat + 1
      ∧ (nextRow s).dfFpos.toNat = s.dfFpos.toNat + 1 + s.rowbytes.toNat
      ∧ (nextRow s).dfOpos.toNat = s.dfOpos.toNat + s.rowbytes.toNat := by
  have hle := hpos.opos_le_fpos
  have hf := s.fLen.isLt
  exact nextRow_toNat hrow (by omega) (by omega)

/-- `NextRow` from a row whose raw bytes are all written gives a position of the image (44_defilter.md R211, R214). -/
theorem nextRow_position {s : State} (hpos : s.Position) (hrow : s.dfRow.toNat < s.height.toNat)
    (hlen : s.dfFpos.toNat + 1 + s.rowbytes.toNat ≤ s.fLen.toNat)
    (hcov : s.obuf.covers (s.dfOpos.toNat + s.rowbytes.toNat)) : (nextRow s).Position := by
  obtain ⟨hr, hf, ho⟩ := nextRow_toNat_of_position hpos hrow hlen
  obtain ⟨-, hfpos, hopos, -⟩ := hpos
  refine ⟨by rw [hr]; exact hrow, ?_, ?_, ?_, Nat.zero_le _, fun h => absurd rfl h, ?_⟩
  · rw [hf, hr, hfpos, nextRow_rowbytes, Nat.succ_mul]
    omega
  · rw [ho, hr, hopos, nextRow_rowbytes, Nat.succ_mul]
  · rw [hf]
    exact hlen
  · rw [ho]
    exact hcov

/-- A row start gives a position of the image (44_defilter.md R202). -/
theorem rowStart_position {s : State} (ft : FilterType) (hpos : s.Position)
    (hcol : s.dfCol.toNat = 0) (hrow : s.dfRow.toNat < s.height.toNat)
    (hlen : s.dfFpos.toNat + 1 + s.rowbytes.toNat ≤ s.fLen.toNat) : (rowStart ft s).Position := by
  have hpos' := hpos
  obtain ⟨hr, hfpos, hopos, hf, -, -, hcov⟩ := hpos
  rw [hcol] at hcov
  unfold rowStart
  split
  · next hempty =>
    exact nextRow_position (s := { s with dfFtype := ft }) hpos' hrow hlen (by rw [hempty]; exact hcov)
  · next hne => exact ⟨hr, hfpos, hopos, hf, Nat.one_le_iff_ne_zero.mpr hne, fun _ => ⟨hrow, hlen⟩, hcov⟩

/-- A byte step gives a position of the image: the raw byte extends what is written (44_defilter.md R210, R211, R214). -/
theorem writeBack_position {s : State} (n : Neighbours) (pr : Byte) (hpos : s.Position)
    (hcol : s.dfCol.toNat ≠ 0) : (writeBack n pr s).Position := by
  have hpos' := hpos
  obtain ⟨hr, hfpos, hopos, hf, hle, hin, hcov⟩ := hpos
  obtain ⟨hrow, hlen⟩ := hin hcol
  have hwritten : (Memory.write s.obuf s.rawAddr (n.x + pr)).covers (s.dfOpos.toNat + s.dfCol.toNat) := by
    have h := Memory.covers_write_next (n.x + pr) hcov
    rwa [show s.dfOpos.toNat + (s.dfCol.toNat - 1) + 1 = s.dfOpos.toNat + s.dfCol.toNat by omega] at h
  by_cases hend : s.dfCol.toNat < s.rowbytes.toNat
  · rw [writeBack_inRow hend]
    have hnext : (BitVec.ofNat 64 (s.dfCol.toNat + 1)).toNat = s.dfCol.toNat + 1 := by
      rw [BitVec.toNat_ofNat, Nat.mod_eq_of_lt (by have := s.rowbytes.isLt; omega)]
    refine ⟨hr, hfpos, hopos, hf, ?_, fun _ => ⟨hrow, hlen⟩, ?_⟩ <;> dsimp only <;> rw [hnext]
    · exact hend
    · exact hwritten
  · rw [writeBack_rowEnd hend]
    have hlast : s.rowbytes.toNat = s.dfCol.toNat := by omega
    refine nextRow_position ?_ hrow hlen ?_
    · exact ⟨hr, hfpos, hopos, hf, hle, hin, Memory.covers_write _ _ hcov⟩
    · dsimp only
      rw [hlast]
      exact hwritten

/-- A byte step passes one byte of FBUF (44_defilter.md R210, R211). -/
theorem writeBack_passes_byte {s : State} (n : Neighbours) (pr : Byte) (hpos : s.Position) (hcol : s.dfCol.toNat ≠ 0) :
    (writeBack n pr s).dfFpos.toNat + (writeBack n pr s).dfCol.toNat = s.dfFpos.toNat + s.dfCol.toNat + 1 := by
  have hpos' := hpos
  obtain ⟨-, -, -, -, hle, hin, -⟩ := hpos
  obtain ⟨hrow, hlen⟩ := hin hcol
  by_cases hend : s.dfCol.toNat < s.rowbytes.toNat
  · rw [writeBack_inRow hend]
    dsimp only
    rw [BitVec.toNat_ofNat, Nat.mod_eq_of_lt (by have := s.rowbytes.isLt; omega)]
    omega
  · rw [writeBack_rowEnd hend, nextRow_dfFpos, nextRow_dfCol, BitVec.toNat_ofNat, BitVec.toNat_ofNat,
      Nat.mod_eq_of_lt (by have := s.fLen.isLt; dsimp only; omega)]
    dsimp only
    omega

/-- A row start passes one byte of FBUF (44_defilter.md R202, R211). -/
theorem rowStart_passes_byte {s : State} (ft : FilterType) (hpos : s.Position) (hcol : s.dfCol.toNat = 0)
    (hrow : s.dfRow.toNat < s.height.toNat) (hlen : s.dfFpos.toNat + 1 + s.rowbytes.toNat ≤ s.fLen.toNat) :
    (rowStart ft s).dfFpos.toNat + (rowStart ft s).dfCol.toNat = s.dfFpos.toNat + s.dfCol.toNat + 1 := by
  unfold rowStart
  split
  · next hempty =>
    obtain ⟨-, hf, -⟩ := nextRow_toNat_of_position (s := { s with dfFtype := ft }) hpos hrow hlen
    rw [hf, hcol, nextRow_dfCol]
    dsimp only
    rw [hempty]
    rfl
  · rw [hcol]
    rfl

/-- The whole output is there when the rows are behind (44_defilter.md R211, R215). -/
theorem State.Position.finished {s : State} (h : s.Position) (hcol : s.dfCol.toNat = 0) (hrow : s.dfRow = s.height) :
    s.dfOpos.toNat = s.height.toNat * s.rowbytes.toNat ∧ s.obuf.covers s.dfOpos.toNat := by
  obtain ⟨-, -, hopos, -, -, -, hcov⟩ := h
  rw [hcol] at hcov
  exact ⟨by rw [hopos, hrow], hcov⟩

/-! ## The block's moves -/

/-- An error keeps the invariant, where a command is latched (60_exceptions.md R237). -/
theorem raise_inv {s : State} {c : Cause} (tag : Word32) (pos : Word64) (hspaces : s.spacesWf) (hstores : s.Stores)
    (hcmd : s.cmdLatch ≠ .noCommand) (hne : c.kind ≠ .noError) (hio : c.kind ≠ .ioError) : (raise c tag pos s).Inv :=
  .of_clause (p := .error) rfl hspaces hstores ⟨hcmd, hne, hio⟩

/-- While a run is in progress a command is latched (10_state.md R21). -/
theorem State.Inv.cmdLatch_ne {s : State} (h : s.Inv) (hb : s.phase.busy = true) : s.cmdLatch ≠ .noCommand := by
  intro hc
  have hl := h.latch
  rw [hc] at hl
  cases hp : s.phase <;> rw [hp] at hl hb <;> simp_all [latchFits, Phase.busy]

/-- The defilterer's entries start at row 0 (44_defilter.md R201). -/
theorem defilterInit_position (s : State) : (defilterInit s).Position :=
  ⟨Nat.zero_le _, by simp, by simp, Nat.zero_le _, Nat.zero_le _, fun h => absurd rfl h, Memory.covers_zero _⟩

/-- A move of the block keeps the invariant. -/
theorem BlockMove.inv {s t : State} (h : BlockMove s t) (hs : s.Inv) : t.Inv := by
  obtain ⟨hin, hz, hf, ho⟩ := hs.spaces
  cases h with
  | wait => exact hs
  | failed c tag pos busy kind =>
    refine raise_inv tag pos hs.spaces hs.stores (hs.cmdLatch_ne busy) ?_ ?_ <;>
      rcases kind with hk | hk | hk <;> rw [hk] <;> exact nofun
  | signature hp len =>
    obtain ⟨herr, hcmd, ⟨hbound, -, hz, hcov⟩, hcur, hhdr⟩ := hs.clause hp
    obtain ⟨-, -, -, -, hend⟩ := hs.hdrFirst hhdr
    have hz0 : s.zlen.toNat ≤ 8 := Nat.le_trans hz (by rw [hcur]; exact Nat.zero_le _)
    exact .of_clause (p := .chunks) rfl hs.spaces hs.stores
      ⟨herr, hcmd, ⟨hbound, len, hz0, hcov⟩, Nat.le_refl _, hend⟩
  | chunk i r u hp _ hlen hrec hsum hasm => exact chunkStep_inv hs hp hlen hrec hsum hasm
  | parsed hp legal cmd =>
    obtain ⟨herr, -, ⟨-, -, -, hcov⟩, -⟩ := hs.clause hp
    have hcmd : s.cmdLatch ≠ .noCommand := by simp [cmd]
    exact .of_clause (p := .done) rfl hs.spaces hs.stores ⟨herr, hcmd, fun _ => hcov, fun hne => absurd cmd hne⟩
  | described hp legal cmd =>
    obtain ⟨herr, -, hwalk, hend⟩ := hs.clause hp
    obtain ⟨-, hlow, hhigh⟩ := deriveRow_bpp_toNat legal
    obtain ⟨-, hrow⟩ := deriveRow_rowbytes_toNat legal
    exact .of_clause (p := .inflate) rfl hs.spaces hs.stores ⟨herr, cmd, hwalk, hend, legal, hlow, hhigh, hrow⟩
  | inflated f hp len =>
    obtain ⟨herr, hcmd, -, -, -, hlow, hhigh, hrow⟩ := hs.clause hp
    have hlen : (BitVec.ofNat 64 f.length).toNat < Config.lengthBound := by
      rw [BitVec.toNat_ofNat]
      exact Nat.lt_of_le_of_lt (Nat.mod_le ..) len
    exact .of_clause (p := .defilter) rfl ⟨hin, hz, Memory.wf_ofBytes f, ho⟩ hs.stores
      ⟨herr, .inl hcmd, ⟨hlow, hhigh, hrow, hlen⟩, defilterInit_position _⟩
  | row ft hp hcol left len =>
    obtain ⟨herr, hcmd, hparams, hpos⟩ := hs.clause hp
    have hrow : s.dfRow.toNat < s.height.toNat :=
      Nat.lt_of_le_of_ne hpos.1 (fun h => left (BitVec.eq_of_toNat_eq h))
    have hpos' := rowStart_position ft hpos hcol hrow len
    rw [rowStart_frame] at hpos' ⊢
    exact .of_clause (p := .defilter) hp hs.spaces hs.stores ⟨herr, hcmd, hparams, hpos'⟩
  | byte n hp hcol =>
    obtain ⟨herr, hcmd, hparams, hpos⟩ := hs.clause hp
    have hpos' := writeBack_position n (s.dfFtype.ofNeighbours n) hpos hcol
    rw [writeBack_frame] at hpos'
    rw [byteStep_frame]
    exact .of_clause (p := .defilter) hp ⟨hin, hz, hf, Memory.wf_write _ _ ho⟩ hs.stores
      ⟨herr, hcmd, hparams, hpos'⟩
  | finished hp hcol hrow =>
    obtain ⟨herr, hcmd, -, hpos⟩ := hs.clause hp
    have hne : s.cmdLatch ≠ .noCommand := by rcases hcmd with h | h <;> simp [h]
    have hnp : s.cmdLatch ≠ .parse := by rcases hcmd with h | h <;> simp [h]
    exact .of_clause (p := .done) rfl hs.spaces hs.stores
      ⟨herr, hne, fun hparse => absurd hparse hnp, fun _ => hpos.finished hcol hrow⟩

/-! ## The host's moves -/

/-- The host's pending moves are no matter of the invariant. -/
theorem State.Inv.host {s : State} (h : s.Inv) (ms : List HostMove) : State.Inv { s with host := ms } :=
  .of_clause (p := s.phase) rfl h.spaces h.stores (h.clause rfl)

/-- CLEAR leads to an idle state of the invariant (70_reset_and_hazards.md R261). -/
theorem clear_inv {s : State} (h : s.Inv) : (clear s).Inv :=
  .of_clause (p := .idle) rfl h.spaces h.stores ⟨⟨rfl, rfl, rfl, rfl⟩, rfl⟩

/-- The command DEFILTER keeps the invariant, legal parameters or not (44_defilter.md R201). -/
theorem startDefilter_inv {s : State} (h : s.Inv) : (startDefilter s).Inv := by
  have hstores : (runInitKeep s).Stores := .of_nothing_seen rfl rfl rfl rfl rfl rfl rfl rfl
  rcases startDefilter_cases s with ⟨-, he⟩ | ⟨hbad, he⟩ <;> rw [he]
  · exact raise_inv _ _ h.spaces hstores nofun nofun nofun
  · exact .of_clause (p := .defilter) rfl h.spaces hstores
      ⟨⟨rfl, rfl, rfl, rfl⟩, .inr rfl, badDefilterParameter_false.mp hbad, defilterInit_position _⟩

/-- A register write in IDLE keeps the invariant: no space, flag, store or error register is an RW register. -/
theorem setReg_inv {s : State} (h : s.Inv) (hp : s.phase = .idle) (r : Reg) (v : Word32) : (setReg r v s).Inv := by
  rw [setReg_frame]
  exact .of_clause (p := .idle) hp h.spaces h.stores (h.clause hp)

/-- Where no run is in progress, a byte placed in IN or FBUF keeps what the phase demands. -/
theorem placed_inv {s : State} (h : s.Inv) (hb : s.phase.busy = false) {min mf : Memory} (hin : min.wf) (hf : mf.wf) :
    State.Inv { s with inMem := min, fbuf := mf } := by
  obtain ⟨-, hz, -, ho⟩ := h.spaces
  have hclause := h.clause rfl
  cases hp : s.phase <;> rw [hp] at hb hclause
  case idle => exact .of_clause (p := .idle) rfl ⟨hin, hz, hf, ho⟩ h.stores hclause
  case done => exact .of_clause (p := .done) rfl ⟨hin, hz, hf, ho⟩ h.stores hclause
  case error => exact .of_clause (p := .error) rfl ⟨hin, hz, hf, ho⟩ h.stores hclause
  all_goals cases hb

/-- A move of the host keeps the invariant. -/
theorem HostEffect.inv {s t : State} {m : HostMove} (h : HostEffect s m t) (hs : s.Inv) : t.Inv := by
  cases h with
  | ignored => exact hs
  | cleared => exact clear_inv hs
  | parse v cmd hp which len =>
    have hwalk : (runInit s).Walk := ⟨len, Nat.zero_le _, Nat.zero_le _, Memory.covers_zero _⟩
    exact .of_clause (p := .sig) rfl hs.spaces (.of_nothing_seen rfl rfl rfl rfl rfl rfl rfl rfl)
      ⟨⟨rfl, rfl, rfl, rfl⟩, which, hwalk, rfl, rfl⟩
  | defilter => exact startDefilter_inv hs
  | set r v hp => exact setReg_inv hs hp r v
  | placedIn off b idle =>
    obtain ⟨hin, -, hf, -⟩ := hs.spaces
    exact placed_inv hs idle (Memory.wf_write _ _ hin) hf
  | placedFbuf off b idle =>
    obtain ⟨hin, -, hf, -⟩ := hs.spaces
    exact placed_inv hs idle hin (Memory.wf_write _ _ hf)
  | reset => exact hardReset_inv s
  | pass _ move => exact move.inv hs

/-- Settles O58: the block's moves and the host's, each keeping the clauses of the phase it leads to. -/
theorem everyStepKeepsTheInvariant : Obligations.EveryStepKeepsTheInvariant := by
  intro inflate s t hs h
  rcases stepWith_next h with ⟨-, hmove⟩ | ⟨m, ms, -, heff⟩
  · exact hmove.inv hs
  · exact heff.inv (hs.host ms)

/-! ## The finished run -/

/-- Settles O39: the step keeps the invariant, whose DONE clause says that the output is there, since a defiltering run
is no PARSE run. -/
theorem finishedRunHasItsWholeOutput : Obligations.FinishedRunHasItsWholeOutput := by
  intro s t hs hp hh h hdone
  have hmove := blockMove_of_stepWith hh h
  obtain ⟨-, hcmd, -⟩ := hs.clause hp
  have hnp : t.cmdLatch ≠ .parse := by
    cases hmove with
    | wait idle => rw [hp] at idle; cases idle
    | failed => cases hdone
    | signature hq => rw [hp] at hq; cases hq
    | chunk _ _ _ hq => rw [hp] at hq; cases hq
    | parsed hq => rw [hp] at hq; cases hq
    | described hq => rw [hp] at hq; cases hq
    | inflated _ hq => rw [hp] at hq; cases hq
    | row ft => rw [rowStart_frame] at hdone; exact absurd (hp.symm.trans hdone) nofun
    | byte n => rw [byteStep_frame] at hdone; exact absurd (hp.symm.trans hdone) nofun
    | finished => rcases hcmd with hc | hc <;> simp [hc]
  obtain ⟨-, -, -, hout⟩ := (hmove.inv hs).clause hdone
  obtain ⟨hlen, hcov⟩ := hout hnp
  obtain ⟨bs, hbs⟩ := Memory.readBytes_isSome (m := t.obuf) (x := 0) (n := t.height.toNat * t.rowbytes.toNat)
    (fun k hk => hcov _ (by omega))
  exact ⟨hlen, bs, hbs, by rw [hlen]; exact Memory.readBytes_length hbs⟩

end Sys2Proof.Machine
end

section
/-! PROOFS. Progress and termination: no step of the block faults where the promised bytes are there, every run ends,
and O59, O60. -/

namespace Sys2Proof.Machine

/-! ## Progress -/

/-- A neighbour that is there or absent is fetched (44_defilter.md R203). -/
theorem neighbour_isSome {present : Bool} {m : Memory} {addr : Nat}
    (h : present = true → (m.read addr).isSome = true) : ∃ b, neighbour present m addr = some b := by
  cases present with
  | false => exact ⟨0, rfl⟩
  | true => exact Option.isSome_iff_exists.mp (h rfl)

/-- Inside a row, with FBUF there, the byte step finds its four bytes (44_defilter.md R203, R214). -/
theorem fetchNeighbours_isOk {s : State} (hparams : s.Params) (hpos : s.Position) (hcol : s.dfCol.toNat ≠ 0)
    (hfbuf : s.fbuf.covers s.fLen.toNat) : ∃ n, fetchNeighbours s = .ok n := by
  obtain ⟨hlow, -⟩ := hparams
  obtain ⟨-, -, hopos, -, hle, hin, hcov⟩ := hpos
  obtain ⟨-, hlen⟩ := hin hcol
  have above (hr : s.hasAbove = true) : s.rowbytes.toNat ≤ s.dfOpos.toNat := by
    rw [hopos]
    exact Nat.le_mul_of_pos_left _ (of_decide_eq_true hr)
  obtain ⟨x, hx⟩ := Option.isSome_iff_exists.mp (hfbuf s.filteredAddr (by unfold State.filteredAddr; omega))
  obtain ⟨a, ha⟩ := neighbour_isSome (present := s.hasLeft) (m := s.obuf) (addr := s.rawAddr - s.bpp.toNat)
    (fun hl => hcov _ (by have := of_decide_eq_true hl; unfold State.rawAddr; omega))
  obtain ⟨b, hb⟩ := neighbour_isSome (present := s.hasAbove) (m := s.obuf) (addr := s.rawAddr - s.rowbytes.toNat)
    (fun hr => hcov _ (by have := above hr; unfold State.rawAddr; omega))
  obtain ⟨c, hc⟩ := neighbour_isSome (present := s.hasAbove && s.hasLeft) (m := s.obuf)
    (addr := s.rawAddr - s.rowbytes.toNat - s.bpp.toNat) (fun hboth => by
      obtain ⟨hr, hl⟩ := (Bool.and_eq_true ..).mp hboth
      exact hcov _ (by have := above hr; have := of_decide_eq_true hl; unfold State.rawAddr; omega))
  exact ⟨⟨x, a, b, c⟩, fetchNeighbours_ok.mpr ⟨hx, ha, hb, hc⟩⟩

/-- SIG answers a next state where the bytes of IN are there (40_framing.md R121). -/
theorem execSig_next {s : State} (h : s.inMem.covers s.inLen.toNat) : ∃ t, execSig s = .next t := by
  unfold execSig
  split
  · exact ⟨_, rfl⟩
  · next hlen =>
    obtain ⟨bs, hbs⟩ := Memory.readBytes_isSome (m := s.inMem) (x := 0) (n := 8) (fun k hk => h _ (by omega))
    rw [hbs]
    dsimp only
    split <;> exact ⟨_, rfl⟩

/-- A chunk step answers a next state where the bytes of IN are there (40_framing.md R129). -/
theorem chunkStep_next {s : State} (h : s.inMem.covers s.inLen.toNat) :
    ∃ t, afterFetch (fetchChunk s) s = .next t := by
  rcases fetchChunk_cases s with ⟨c, tag, -, hf⟩ | hf | ⟨i, hf, hi, -⟩
  · exact ⟨_, by rw [hf]; rfl⟩
  · exact absurd hf (fetchChunk_written h)
  · rcases exec_chunk_cases hi s with ⟨c, -, he⟩ | ⟨r, t, -, -, -, he⟩ <;> exact ⟨_, by rw [hf]; exact he⟩

/-- A step of the defilterer answers a next state where the bytes of FBUF are there (44_defilter.md R202, R203). -/
theorem defilterStep_next {s : State} (hparams : s.Params) (hpos : s.Position) (h : s.fbuf.covers s.fLen.toNat) :
    ∃ t, afterFetch (fetchScanline s) s = .next t := by
  unfold fetchScanline
  split
  · next hcol =>
    rcases fetchRow_cases s with ⟨-, hf⟩ | ⟨c, -, hf⟩ | ⟨-, hnone, hlen⟩ | ⟨ft, hf, -⟩
    · exact ⟨_, by rw [hf]; rfl⟩
    · exact ⟨_, by rw [hf]; rfl⟩
    · have := h s.dfFpos.toNat (by omega)
      simp [hnone] at this
    · exact ⟨_, by rw [hf, afterFetch_run, exec_scanline, scanline_start hcol]⟩
  · next hcol =>
    obtain ⟨n, hn⟩ := fetchNeighbours_isOk hparams hpos hcol h
    exact ⟨_, by rw [afterFetch_run, exec_scanline, scanline_byte hcol hn]⟩

/-- In a state of the invariant with the promised bytes there, the block's step answers a next state, or refuses an
oversized result of the decompressor (log 7). -/
theorem blockStep_progress (inflate : List Byte → InflateResult) {s : State} (hs : s.Inv) (hin : s.inputsPresent) :
    (∃ t, blockStep inflate s = .next t) ∨ (s.phase = .inflate ∧ blockStep inflate s = .refused .inflateTooLong) := by
  obtain ⟨hinMem, hfbuf⟩ := hin
  unfold blockStep
  cases hp : s.phase
  case idle => exact .inl ⟨s, rfl⟩
  case done => exact .inl ⟨s, rfl⟩
  case error => exact .inl ⟨s, rfl⟩
  case sig => exact .inl (execSig_next (hinMem (.inl hp)))
  case chunks => exact .inl (chunkStep_next (hinMem (.inr hp)))
  case final =>
    obtain ⟨-, hcmd, -⟩ := hs.clause hp
    rcases finalPass_cases s with ⟨c, -, -, he⟩ | ⟨-, ⟨-, he⟩ | ⟨-, he⟩ | ⟨hnp, hnd, -⟩⟩
    · exact .inl ⟨_, he⟩
    · exact .inl ⟨_, he⟩
    · exact .inl ⟨_, he⟩
    · exact absurd hcmd (not_or.mpr ⟨hnd, hnp⟩)
  case inflate =>
    obtain ⟨-, -, ⟨-, -, -, hcov⟩, -⟩ := hs.clause hp
    rcases inflateCall_cases inflate s with ⟨hnone, -⟩ | he | he | ⟨f, -, he⟩
    · obtain ⟨z, hz⟩ := Memory.readBytes_isSome (m := s.zbuf) (x := 0) (n := s.zlen.toNat)
        (fun k hk => hcov _ (by omega))
      simp [hz] at hnone
    · exact .inl ⟨_, he⟩
    · exact .inr ⟨rfl, he⟩
    · exact .inl ⟨_, he⟩
  case defilter =>
    obtain ⟨-, -, hparams, hpos⟩ := hs.clause hp
    exact .inl (defilterStep_next hparams hpos (hfbuf hp))

/-- A move of the block keeps the promise: IN and `IN_LEN` are the host's, and FBUF changes with its length alone
(70_reset_and_hazards.md R263, R264). -/
theorem BlockMove.inputsPresent {s t : State} (h : BlockMove s t) (hin : s.inputsPresent) : t.inputsPresent := by
  obtain ⟨hinMem, hfbuf⟩ := hin
  cases h with
  | wait => exact ⟨hinMem, hfbuf⟩
  | failed => exact ⟨by simp, nofun⟩
  | signature hp => exact ⟨fun _ => hinMem (.inl hp), nofun⟩
  | chunk i r u hp _ _ _ _ hasm =>
    obtain ⟨hmem, hlen, -⟩ := chunkStep_frame hasm
    refine ⟨fun _ => by rw [hmem, hlen]; exact hinMem (.inr hp), fun ht => ?_⟩
    rcases endOfStream_phase u with ⟨-, hu⟩ | ⟨-, hu⟩
    · cases hu.symm.trans ht
    · cases (hu.trans ((assemble_phase hasm).trans hp)).symm.trans ht
  | parsed => exact ⟨by simp, nofun⟩
  | described => exact ⟨by simp, nofun⟩
  | inflated f hp len =>
    refine ⟨by simp, fun _ a ha => Memory.covers_ofBytes f a ?_⟩
    rw [defilterInit_fLen, BitVec.toNat_ofNat] at ha
    exact Nat.lt_of_lt_of_le ha (Nat.mod_le ..)
  | row ft hp =>
    rw [rowStart_frame]
    exact ⟨hinMem, fun _ => hfbuf hp⟩
  | byte n hp =>
    rw [byteStep_frame]
    exact ⟨hinMem, fun _ => hfbuf hp⟩
  | finished => exact ⟨by simp, nofun⟩

/-- Settles O59: progress of the block's step, and its move keeps the promise. -/
theorem noBlockStepFaults : Obligations.NoBlockStepFaults := by
  intro inflate s hs hin hh
  rw [stepWith_block inflate hh]
  rcases blockStep_progress inflate hs hin with ⟨t, ht⟩ | hrefused
  · exact .inl ⟨t, ht, fun _ => (blockStep_next ht).inputsPresent hin⟩
  · exact .inr hrefused

/-! ## Runs -/

/-- A state from which the block runs on its own: the invariant, the promised bytes, no move of the host. -/
def State.Running (s : State) : Prop := s.Inv ∧ s.inputsPresent ∧ s.host = []

/-- The block's moves lead from running states to running states. -/
theorem BlockMove.running {s t : State} (h : BlockMove s t) (hs : s.Running) : t.Running := by
  obtain ⟨hinv, hin, hh⟩ := hs
  exact ⟨h.inv hinv, h.inputsPresent hin, h.host_eq.trans hh⟩

theorem runWith_succ (inflate : List Byte → InflateResult) (n : Nat) {s t : State} (h : stepWith inflate s = .next t) :
    runWith inflate (n + 1) s = runWith inflate n t := by
  simp only [runWith, h]

/-- Running on after a run that answered a next state. -/
theorem runWith_add {inflate : List Byte → InflateResult} {n : Nat} {s t : State}
    (h : runWith inflate n s = .next t) (m : Nat) : runWith inflate (n + m) s = runWith inflate m t := by
  induction n generalizing s with
  | zero => cases h; rw [Nat.zero_add]
  | succ n ih =>
    simp only [runWith] at h
    split at h
    · next u hu => rw [Nat.succ_add_eq_add_succ, Nat.add_succ, runWith_succ inflate _ hu, ih h]
    · cases h
    · cases h

/-- Outside phase INFLATE a running state's step is a move of the block to a running state. -/
theorem State.Running.step {s : State} (hs : s.Running) (inflate : List Byte → InflateResult)
    (hp : s.phase ≠ .inflate) : ∃ t, stepWith inflate s = .next t ∧ BlockMove s t ∧ t.Running := by
  have hrun := hs
  obtain ⟨hinv, hin, hh⟩ := hs
  rw [stepWith_block inflate hh]
  rcases blockStep_progress inflate hinv hin with ⟨t, ht⟩ | ⟨hi, -⟩
  · exact ⟨t, ht, blockStep_next ht, (blockStep_next ht).running hrun⟩
  · exact absurd hi hp

/-- A phase whose moves lower a measure by `d` or leave it is left within the measure's share of `d`, and one step
more. -/
theorem State.Running.leaves (inflate : List Byte → InflateResult) {p : Phase} (hp : p ≠ .inflate)
    (measure : State → Nat) {d : Nat} (hd : 0 < d)
    (lowers : ∀ s t, s.Inv → t.Inv → s.phase = p → BlockMove s t → t.phase = p → measure t + d ≤ measure s)
    {s : State} (hs : s.Running) (hsp : s.phase = p) :
    ∃ n t, n ≤ measure s / d + 1 ∧ runWith inflate n s = .next t ∧ t.phase ≠ p ∧ t.Running
      ∧ phaseMove p t.phase = true := by
  induction hm : measure s using Nat.strong_induction_on generalizing s with
  | _ m ih =>
    obtain ⟨t, ht, hmove, htrun⟩ := hs.step inflate (hsp ▸ hp)
    by_cases htp : t.phase = p
    · have hlow := lowers s t hs.1 htrun.1 hsp hmove htp
      obtain ⟨n, u, hn, hrun, hu⟩ := ih (measure t) (by omega) htrun htp rfl
      refine ⟨n + 1, u, ?_, (runWith_succ inflate n ht).trans hrun, hu⟩
      have hdiv : measure t / d + 1 ≤ m / d := by
        rw [← Nat.add_div_right _ hd]
        exact Nat.div_le_div_right (hm ▸ hlow)
      omega
    · exact ⟨1, t, Nat.le_add_left .., runWith_succ inflate 0 ht, htp, htrun, hsp ▸ hmove.phaseMove⟩

/-! ## The chunk walk -/

/-- A chunk step that stays in the walk passes twelve bytes or more (40_framing.md R127). -/
theorem BlockMove.chunks_advances {s t : State} (hs : s.Inv) (hp : s.phase = .chunks) (h : BlockMove s t)
    (ht : t.phase = .chunks) :
    t.inLen.toNat - t.feCursor.toNat + 12 ≤ s.inLen.toNat - s.feCursor.toNat := by
  cases h with
  | wait idle => rw [hp] at idle; cases idle
  | failed => cases ht
  | signature hq => exact nomatch hp.symm.trans hq
  | parsed hq => exact nomatch hp.symm.trans hq
  | described hq => exact nomatch hp.symm.trans hq
  | inflated _ hq => exact nomatch hp.symm.trans hq
  | row _ hq => exact nomatch hp.symm.trans hq
  | byte _ hq => exact nomatch hp.symm.trans hq
  | finished hq => exact nomatch hp.symm.trans hq
  | chunk i r u _ _ _ hrec hsum hasm =>
    obtain ⟨-, -, hwalk, -⟩ := hs.clause hp
    obtain ⟨-, hadv⟩ := chunkStep_walk hwalk hrec hsum (assemble_ok hasm).2
    obtain ⟨-, -, hcursor, hlen⟩ := endOfStream_assemble_framing hasm
    have hfits : s.feCursor.toNat + 12 + i.payload.length ≤ s.inLen.toNat := hsum
    have hcur : (endOfStream u).feCursor.toNat = s.feCursor.toNat + 12 + i.payload.length := by
      rw [hcursor]
      exact advanceFrame_feCursor_toNat _ hsum
    rw [hlen, advanceFrame_inLen, hcur]
    omega

/-- The chunk walk ends within one step for every twelve bytes still ahead and one more (40_framing.md R129). -/
theorem State.Running.leaves_chunks (inflate : List Byte → InflateResult) {s : State} (hs : s.Running)
    (hp : s.phase = .chunks) :
    ∃ n t, n ≤ (s.inLen.toNat - s.feCursor.toNat) / 12 + 1 ∧ runWith inflate n s = .next t ∧ t.phase ≠ .chunks
      ∧ t.Running ∧ phaseMove .chunks t.phase = true :=
  hs.leaves inflate (p := .chunks) nofun (fun u => u.inLen.toNat - u.feCursor.toNat) (by decide)
    (fun _ _ hu _ hup hmove hvp => hmove.chunks_advances hu hup hvp) hp

/-! ## The defilterer -/

/-- A step of the defilterer that stays in its phase passes one byte of FBUF (44_defilter.md R202, R210, R211). -/
theorem BlockMove.defilter_advances {s t : State} (hs : s.Inv) (hp : s.phase = .defilter) (h : BlockMove s t)
    (ht : t.phase = .defilter) :
    t.fLen = s.fLen ∧ t.dfFpos.toNat + t.dfCol.toNat = s.dfFpos.toNat + s.dfCol.toNat + 1 := by
  obtain ⟨-, -, -, hpos⟩ := hs.clause hp
  cases h with
  | wait idle => rw [hp] at idle; cases idle
  | failed => cases ht
  | signature hq => exact nomatch hp.symm.trans hq
  | parsed hq => exact nomatch hp.symm.trans hq
  | described hq => exact nomatch hp.symm.trans hq
  | inflated _ hq => exact nomatch hp.symm.trans hq
  | chunk _ _ _ hq => exact nomatch hp.symm.trans hq
  | finished => cases ht
  | row ft _ hcol left len =>
    have hrow : s.dfRow.toNat < s.height.toNat := Nat.lt_of_le_of_ne hpos.1 (fun h => left (BitVec.eq_of_toNat_eq h))
    exact ⟨by rw [rowStart_frame], rowStart_passes_byte ft hpos hcol hrow len⟩
  | byte n _ hcol =>
    have hbyte := writeBack_passes_byte n (s.dfFtype.ofNeighbours n) hpos hcol
    rw [byteStep_frame]
    exact ⟨rfl, hbyte⟩

/-- In phase DEFILTER the position does not pass `F_LEN` (44_defilter.md R202). -/
theorem State.Inv.defilter_in {s : State} (hs : s.Inv) (hp : s.phase = .defilter) :
    s.dfFpos.toNat + s.dfCol.toNat ≤ s.fLen.toNat := by
  obtain ⟨-, -, -, -, -, -, hle, hcol, hin, -⟩ := hs.clause hp
  by_cases h : s.dfCol.toNat = 0
  · omega
  · obtain ⟨-, hlen⟩ := hin h
    omega

/-- Phase DEFILTER ends within one step for every byte of FBUF still ahead and one more (70_reset_and_hazards.md
R270). -/
theorem State.Running.leaves_defilter (inflate : List Byte → InflateResult) {s : State} (hs : s.Running)
    (hp : s.phase = .defilter) :
    ∃ n t, n ≤ s.fLen.toNat + 1 ∧ runWith inflate n s = .next t ∧ t.phase.busy = false := by
  have lowers (u v : State) (hu : u.Inv) (hv : v.Inv) (hup : u.phase = .defilter) (hmove : BlockMove u v)
      (hvp : v.phase = .defilter) :
      v.fLen.toNat - (v.dfFpos.toNat + v.dfCol.toNat) + 1 ≤ u.fLen.toNat - (u.dfFpos.toNat + u.dfCol.toNat) := by
    have hin := hv.defilter_in hvp
    obtain ⟨hlen, hadv⟩ := hmove.defilter_advances hu hup hvp
    rw [hlen] at hin ⊢
    omega
  obtain ⟨n, t, hn, hrun, hleft, -, hmove⟩ :=
    hs.leaves inflate (p := .defilter) nofun _ Nat.one_pos lowers hp
  refine ⟨n, t, by omega, hrun, ?_⟩
  cases htp : t.phase <;> rw [htp] at hmove <;> simp_all [phaseMove, Phase.busy]

/-! ## The whole run -/

/-- A run ends: some number of steps leads out of the busy phases, or to the refusal of an oversized result. -/
def State.Ends (inflate : List Byte → InflateResult) (s : State) : Prop :=
  ∃ n, (∃ t, runWith inflate n s = .next t ∧ t.phase.busy = false) ∨ runWith inflate n s = .refused .inflateTooLong

theorem State.Ends.of_not_busy (inflate : List Byte → InflateResult) {s : State} (h : s.phase.busy = false) :
    s.Ends inflate := ⟨0, .inl ⟨s, rfl, h⟩⟩

theorem State.Ends.of_run {inflate : List Byte → InflateResult} {n : Nat} {s t : State}
    (hrun : runWith inflate n s = .next t) (h : t.Ends inflate) : s.Ends inflate := by
  obtain ⟨m, hm⟩ := h
  exact ⟨n + m, by rwa [runWith_add hrun]⟩

theorem State.Running.ends_defilter (inflate : List Byte → InflateResult) {s : State} (hs : s.Running)
    (hp : s.phase = .defilter) : s.Ends inflate := by
  obtain ⟨n, t, -, hrun, hend⟩ := hs.leaves_defilter inflate hp
  exact ⟨n, .inl ⟨t, hrun, hend⟩⟩

/-- The signature check, the final pass and the Inflate call are one step each (70_reset_and_hazards.md R269). -/
theorem BlockMove.leaves_phase {s t : State} (h : BlockMove s t)
    (hp : s.phase = .sig ∨ s.phase = .final ∨ s.phase = .inflate) : t.phase ≠ s.phase := by
  cases h with
  | wait idle => rcases hp with hp | hp | hp <;> rw [hp] at idle <;> cases idle
  | failed => rcases hp with hp | hp | hp <;> rw [hp] <;> exact nofun
  | signature hq => rw [hq]; exact nofun
  | parsed hq => rw [hq]; exact nofun
  | described hq => rw [hq]; exact nofun
  | inflated _ hq => rw [hq]; exact nofun
  | chunk _ _ _ hq => simp [hq] at hp
  | row _ hq => simp [hq] at hp
  | byte _ hq => simp [hq] at hp
  | finished hq => simp [hq] at hp

/-- The Inflate call enters the defilterer, fails, or is refused (43_decompressor.md R186, R187). -/
theorem State.Running.ends_inflate (inflate : List Byte → InflateResult) {s : State} (hs : s.Running)
    (hp : s.phase = .inflate) : s.Ends inflate := by
  have hrun := hs
  obtain ⟨hinv, hin, hh⟩ := hs
  rcases blockStep_progress inflate hinv hin with ⟨t, ht⟩ | ⟨-, hrefused⟩
  · have hmove := blockStep_next ht
    refine .of_run (runWith_succ inflate 0 ((stepWith_block inflate hh).trans ht)) ?_
    have hphase := hmove.phaseMove
    have hleft := hmove.leaves_phase (.inr (.inr hp))
    rw [hp] at hphase hleft
    cases htp : t.phase <;> rw [htp] at hphase
    case defilter => exact (hmove.running hrun).ends_defilter inflate htp
    case error => exact .of_not_busy inflate (by rw [htp]; rfl)
    case inflate => exact absurd htp hleft
    all_goals cases hphase
  · exact ⟨1, .inr (by simp only [runWith, stepWith_block inflate hh, hrefused])⟩

/-- The final pass calls the decompressor, is done, or fails (42_assembler.md R173, R175, R176). -/
theorem State.Running.ends_final (inflate : List Byte → InflateResult) {s : State} (hs : s.Running)
    (hp : s.phase = .final) : s.Ends inflate := by
  obtain ⟨t, ht, hmove, htrun⟩ := hs.step inflate (by simp [hp])
  refine .of_run (runWith_succ inflate 0 ht) ?_
  have hphase := hmove.phaseMove
  have hleft := hmove.leaves_phase (.inr (.inl hp))
  rw [hp] at hphase hleft
  cases htp : t.phase <;> rw [htp] at hphase
  case inflate => exact htrun.ends_inflate inflate htp
  case done => exact .of_not_busy inflate (by rw [htp]; rfl)
  case error => exact .of_not_busy inflate (by rw [htp]; rfl)
  case final => exact absurd htp hleft
  all_goals cases hphase

/-- The chunk walk goes to the final pass or fails (40_framing.md R128). -/
theorem State.Running.ends_chunks (inflate : List Byte → InflateResult) {s : State} (hs : s.Running)
    (hp : s.phase = .chunks) : s.Ends inflate := by
  obtain ⟨n, t, -, hrun, hleft, htrun, hphase⟩ := hs.leaves_chunks inflate hp
  refine .of_run hrun ?_
  cases htp : t.phase <;> rw [htp] at hphase
  case final => exact htrun.ends_final inflate htp
  case error => exact .of_not_busy inflate (by rw [htp]; rfl)
  case chunks => exact absurd htp hleft
  all_goals cases hphase

/-- The signature check goes to the chunk walk or fails (40_framing.md R121). -/
theorem State.Running.ends_sig (inflate : List Byte → InflateResult) {s : State} (hs : s.Running)
    (hp : s.phase = .sig) : s.Ends inflate := by
  obtain ⟨t, ht, hmove, htrun⟩ := hs.step inflate (by simp [hp])
  refine .of_run (runWith_succ inflate 0 ht) ?_
  have hphase := hmove.phaseMove
  have hleft := hmove.leaves_phase (.inl hp)
  rw [hp] at hphase hleft
  cases htp : t.phase <;> rw [htp] at hphase
  case chunks => exact htrun.ends_chunks inflate htp
  case error => exact .of_not_busy inflate (by rw [htp]; rfl)
  case sig => exact absurd htp hleft
  all_goals cases hphase

/-- Every run ends, whatever phase it is in. -/
theorem State.Running.ends (inflate : List Byte → InflateResult) {s : State} (hs : s.Running) : s.Ends inflate := by
  cases hp : s.phase
  case sig => exact hs.ends_sig inflate hp
  case chunks => exact hs.ends_chunks inflate hp
  case final => exact hs.ends_final inflate hp
  case inflate => exact hs.ends_inflate inflate hp
  case defilter => exact hs.ends_defilter inflate hp
  all_goals exact .of_not_busy inflate (by rw [hp]; rfl)

/-- Settles O60: phase after phase a run goes on to its end; the two loops, the chunk walk and the defilterer, consume
bytes of IN and of FBUF at every step. -/
theorem everyRunEnds : Obligations.EveryRunEnds := by
  intro inflate s hinv hin hh
  have hs : s.Running := ⟨hinv, hin, hh⟩
  constructor
  · by_cases hp : s.phase = .defilter
    · obtain ⟨n, t, hn, hrun, hend⟩ := hs.leaves_defilter inflate hp
      exact ⟨n, fun _ => hn, .inl ⟨t, hrun, hend⟩⟩
    · obtain ⟨n, hn⟩ := hs.ends inflate
      exact ⟨n, fun h => absurd h hp, hn⟩
  · intro hp
    obtain ⟨n, t, hn, hrun, hleft, -⟩ := hs.leaves_chunks inflate hp
    exact ⟨n, t, hn, hrun, hleft⟩

end Sys2Proof.Machine
end

section
/-! PROOFS. The defilterer's steps against the row function (44_defilter.md R213): one byte, one row, the image, and O36,
O37. -/

namespace Sys2Proof.Machine

/-! ## Reading many bytes, byte by byte -/

theorem Memory.read_of_readBytes {m : Memory} {x n : Nat} {bs : List Byte} (h : m.readBytes x n = some bs) {k : Nat}
    (hk : k < n) : m.read (x + k) = some (bs.getD k 0) := by
  obtain ⟨hlen, hread⟩ := (Memory.readBytes_eq_some ..).mp h
  rw [hread k hk, List.getD_eq_getElem?_getD, List.getElem?_eq_getElem (by omega), Option.getD_some]

/-- Of a read of many bytes the first part and the rest (`readBytes_append` read backwards). -/
theorem Memory.readBytes_split {m : Memory} {x n k : Nat} {as bs : List Byte} (hn : as.length = n)
    (h : m.readBytes x (n + k) = some (as ++ bs)) : m.readBytes x n = some as ∧ m.readBytes (x + n) k = some bs := by
  simp only [Memory.readBytes_eq_some] at h ⊢
  obtain ⟨hlen, hread⟩ := h
  rw [List.length_append] at hlen
  refine ⟨⟨hn, fun j hj => ?_⟩, by omega, fun j hj => ?_⟩
  · rw [hread j (by omega), List.getElem?_append_left (by omega)]
  · rw [show x + n + j = x + (n + j) by omega, hread (n + j) (by omega), List.getElem?_append_right (by omega), hn,
      Nat.add_sub_cancel_left]

/-- Of the bytes of a list the first and the rest. -/
theorem Memory.readBytes_cons {m : Memory} {x n : Nat} {b : Byte} {bs : List Byte}
    (h : m.readBytes x (n + 1) = some (b :: bs)) : m.read x = some b ∧ m.readBytes (x + 1) n = some bs := by
  rw [Nat.add_comm] at h
  obtain ⟨h1, h2⟩ := Memory.readBytes_split (as := [b]) rfl h
  exact ⟨Memory.read_of_readBytes h1 Nat.zero_lt_one, h2⟩

/-! ## A byte step against the row function -/

/-- A state inside a row of which `raw` is reconstructed and `rest` is still filtered, under the row `prev`. -/
structure State.InRow (s : State) (prev raw rest : List Byte) : Prop where
  inv : s.Inv
  phase : s.phase = .defilter
  host : s.host = []
  col : s.dfCol.toNat = raw.length + 1
  length : raw.length + rest.length = s.rowbytes.toNat
  above : s.rowAbove = some prev
  done : s.obuf.readBytes s.dfOpos.toNat raw.length = some raw
  filtered : s.fbuf.readBytes (s.dfFpos.toNat + 1 + raw.length) rest.length = some rest

/-- What the run of a row leaves alone. -/
structure State.SameRun (s t : State) : Prop where
  phase : t.phase = s.phase
  host : t.host = s.host
  fbuf : t.fbuf = s.fbuf
  bpp : t.bpp = s.bpp
  rowbytes : t.rowbytes = s.rowbytes
  height : t.height = s.height
  fLen : t.fLen = s.fLen
  excessReject : t.excessReject = s.excessReject

theorem State.SameRun.trans {s t u : State} (h : s.SameRun t) (h' : t.SameRun u) : s.SameRun u :=
  ⟨h'.phase.trans h.phase, h'.host.trans h.host, h'.fbuf.trans h.fbuf, h'.bpp.trans h.bpp,
    h'.rowbytes.trans h.rowbytes, h'.height.trans h.height, h'.fLen.trans h.fLen,
    h'.excessReject.trans h.excessReject⟩

/-- In a row but the first the row above is written before this one (44_defilter.md R211). -/
theorem State.Position.rowbytes_le_opos {s : State} (h : s.Position) (hr : s.hasAbove = true) :
    s.rowbytes.toNat ≤ s.dfOpos.toNat := by
  obtain ⟨-, -, hopos, -⟩ := h
  rw [hopos]
  exact Nat.le_mul_of_pos_left _ (of_decide_eq_true hr)

/-- A byte of the row above, as the fetch finds it: zero above row 0 (44_defilter.md R203, R213). -/
theorem neighbour_rowAbove {s : State} {prev : List Byte} (h : s.rowAbove = some prev) {k : Nat}
    (hk : k < s.rowbytes.toNat) :
    neighbour s.hasAbove s.obuf (s.dfOpos.toNat - s.rowbytes.toNat + k) = some (prev.getD k 0) := by
  unfold State.rowAbove at h
  unfold State.hasAbove
  split at h
  · next hrow =>
    cases h
    simp [neighbour, hrow, hk]
  · next hrow =>
    rw [decide_eq_true (Nat.pos_of_ne_zero hrow)]
    exact Memory.read_of_readBytes h hk

theorem neighbour_congr {present : Bool} {m : Memory} {addr addr' : Nat} (h : present = true → addr = addr') :
    neighbour present m addr = neighbour present m addr' := by
  cases present with
  | false => rfl
  | true => rw [h rfl]

/-- The filtered byte and the neighbours that the row function takes at the next position (44_defilter.md R213). -/
def rowNeighbours (bpp : Nat) (prev raw : List Byte) (x : Byte) : Neighbours where
  x := x
  a := if bpp ≤ raw.length then raw.getD (raw.length - bpp) 0 else 0
  b := prev.getD raw.length 0
  c := if bpp ≤ raw.length then prev.getD (raw.length - bpp) 0 else 0

section Row
variable {s : State} {prev raw rest : List Byte} {x : Byte}

theorem State.InRow.length_lt (h : s.InRow prev raw (x :: rest)) : raw.length < s.rowbytes.toNat := by
  have := h.length
  rw [List.length_cons] at this
  omega

theorem State.InRow.rawAddr (h : s.InRow prev raw rest) : s.rawAddr = s.dfOpos.toNat + raw.length := by
  rw [State.rawAddr, h.col, Nat.add_sub_cancel]

/-- Inside a row the fetch finds the filtered byte and the three neighbours of the row function (44_defilter.md R203,
R213). -/
theorem State.InRow.fetch (h : s.InRow prev raw (x :: rest)) :
    fetchNeighbours s = .ok (rowNeighbours s.bpp.toNat prev raw x) := by
  obtain ⟨-, -, ⟨hlow, -⟩, hpos⟩ := h.inv.clause h.phase
  have hlen := h.length_lt
  have hleft : s.hasLeft = decide (s.bpp.toNat ≤ raw.length) := by
    rw [State.hasLeft, h.col]
    exact decide_eq_decide.mpr Nat.lt_succ_iff
  have habove (k : Nat) (hk : k ≤ raw.length) (hr : s.hasAbove = true) :
      s.dfOpos.toNat + k - s.rowbytes.toNat = s.dfOpos.toNat - s.rowbytes.toNat + k := by
    have := hpos.rowbytes_le_opos hr
    omega
  rw [fetchNeighbours_ok, h.rawAddr, hleft]
  refine ⟨?x, ?left, ?above, ?upperLeft⟩
  case x =>
    obtain ⟨hx, -⟩ := Memory.readBytes_cons h.filtered
    rwa [State.filteredAddr, h.col, Nat.add_comm raw.length, ← Nat.add_assoc]
  case left =>
    by_cases hb : s.bpp.toNat ≤ raw.length
    · have hread := Memory.read_of_readBytes h.done (k := raw.length - s.bpp.toNat) (by omega)
      rw [← Nat.add_sub_assoc hb] at hread
      simpa [neighbour, rowNeighbours, hb] using hread
    · simp [neighbour, rowNeighbours, hb]
  case above =>
    rw [neighbour_congr (habove _ (Nat.le_refl _)), neighbour_rowAbove h.above hlen]
    rfl
  case upperLeft =>
    by_cases hb : s.bpp.toNat ≤ raw.length
    · rw [decide_eq_true hb, Bool.and_true, Nat.sub_right_comm, Nat.add_sub_assoc hb,
        neighbour_congr (habove _ (Nat.sub_le ..)), neighbour_rowAbove h.above (by omega)]
      simp [rowNeighbours, hb]
    · simp [neighbour, rowNeighbours, hb]

/-- The state after the byte step inside a row. -/
def State.byteDone (s : State) (prev raw : List Byte) (x : Byte) : State :=
  writeBack (rowNeighbours s.bpp.toNat prev raw x) (rowPredict s.dfFtype s.bpp.toNat prev raw)
    (s.dfFtype.latch (rowNeighbours s.bpp.toNat prev raw x) s)

/-- The row after the byte step inside a row: one more raw byte (44_defilter.md R213). -/
def State.rowDone (s : State) (prev raw : List Byte) (x : Byte) : List Byte :=
  raw ++ [x + rowPredict s.dfFtype s.bpp.toNat prev raw]

/-- Inside a row a step is the byte step with the row function's predictor. -/
theorem State.InRow.step (h : s.InRow prev raw (x :: rest)) (inflate : List Byte → InflateResult) :
    stepWith inflate s = .next (s.byteDone prev raw x) := by
  have hcol : s.dfCol ≠ 0 := fun h0 => by have := h.col; rw [h0] at this; cases this
  rw [stepWith_inRow inflate h.phase h.host hcol, exec_scanline_byte _ hcol h.fetch]
  rfl

theorem State.InRow.byteDone_inv (h : s.InRow prev raw (x :: rest)) : (s.byteDone prev raw x).Inv :=
  (blockMove_of_stepWith h.host (h.step fun _ => .err)).inv h.inv

theorem byteDone_sameRun : s.SameRun (s.byteDone prev raw x) := by
  unfold State.byteDone
  rw [byteStep_frame]
  constructor <;> rfl

/-- The byte step writes the row function's next byte at its place (44_defilter.md R210). -/
theorem State.InRow.byteDone_obuf (h : s.InRow prev raw (x :: rest)) :
    (s.byteDone prev raw x).obuf = Memory.write s.obuf (s.dfOpos.toNat + raw.length)
      (x + rowPredict s.dfFtype s.bpp.toNat prev raw) := by
  unfold State.byteDone
  rw [byteStep_frame, ← h.rawAddr]
  rfl

/-- The row as far as it is reconstructed, after the byte step. -/
theorem State.InRow.byteDone_row (h : s.InRow prev raw (x :: rest)) :
    (s.byteDone prev raw x).obuf.readBytes s.dfOpos.toNat (raw.length + 1) = some (s.rowDone prev raw x) := by
  rw [h.byteDone_obuf]
  refine Memory.readBytes_append ?_ ?_
  · rw [← h.done]
    exact Memory.readBytes_congr fun k hk => Memory.read_write_other _ _ (by omega)
  · rw [Memory.readBytes_succ, Memory.read_write_same]
    rfl

theorem State.InRow.byteDone_others (h : s.InRow prev raw (x :: rest)) {a : Nat}
    (ha : a < s.dfOpos.toNat ∨ s.dfOpos.toNat + s.rowbytes.toNat ≤ a) :
    (s.byteDone prev raw x).obuf.read a = s.obuf.read a := by
  rw [h.byteDone_obuf]
  have := h.length_lt
  exact Memory.read_write_other _ _ (by omega)

/-- A byte step before the last byte of a row goes on in the row. -/
theorem State.InRow.byteDone_position (h : s.InRow prev raw (x :: rest)) (hrest : rest ≠ []) :
    (s.byteDone prev raw x).dfCol.toNat = raw.length + 2 ∧ (s.byteDone prev raw x).dfRow = s.dfRow
      ∧ (s.byteDone prev raw x).dfFpos = s.dfFpos ∧ (s.byteDone prev raw x).dfOpos = s.dfOpos
      ∧ (s.byteDone prev raw x).dfFtype = s.dfFtype := by
  have hlen := h.length
  have hpos : 0 < rest.length := List.length_pos_iff.mpr hrest
  rw [List.length_cons] at hlen
  have hlt : s.dfCol.toNat < s.rowbytes.toNat := by rw [h.col]; omega
  obtain ⟨hcol, hrow, hfpos, hopos⟩ := (writeBack_byteStepResult (rowNeighbours s.bpp.toNat prev raw x)
    (rowPredict s.dfFtype s.bpp.toNat prev raw) s).inRow hlt
  unfold State.byteDone
  rw [byteStep_frame]
  exact ⟨hcol.trans (by rw [h.col]), hrow, hfpos, hopos, rfl⟩

/-- A byte step at the last byte of a row goes to the next row. -/
theorem State.InRow.byteDone_rowEnd (h : s.InRow prev raw [x]) :
    (s.byteDone prev raw x).dfRow.toNat = s.dfRow.toNat + 1 ∧ (s.byteDone prev raw x).dfCol = 0
      ∧ (s.byteDone prev raw x).dfFpos.toNat = s.dfFpos.toNat + 1 + s.rowbytes.toNat
      ∧ (s.byteDone prev raw x).dfOpos.toNat = s.dfOpos.toNat + s.rowbytes.toNat := by
  obtain ⟨-, -, -, hpos⟩ := h.inv.clause h.phase
  have hlast : ¬ s.dfCol.toNat < s.rowbytes.toNat := by
    have := h.length
    rw [List.length_singleton] at this
    rw [h.col]
    omega
  have hcol : s.dfCol.toNat ≠ 0 := by rw [h.col]; exact Nat.succ_ne_zero _
  have hpos' := hpos
  obtain ⟨-, -, -, -, -, hin, -⟩ := hpos
  obtain ⟨hrow, hlen⟩ := hin hcol
  obtain ⟨hr, hf, ho⟩ := nextRow_toNat_of_position hpos' hrow hlen
  unfold State.byteDone
  rw [writeBack_latch, writeBack_rowEnd hlast]
  exact ⟨hr, rfl, hf, ho⟩

/-- The row above a row depends on OBUF below the row alone. -/
theorem rowAbove_congr {t : State} (hr : t.dfRow = s.dfRow) (ho : t.dfOpos = s.dfOpos)
    (hb : t.rowbytes = s.rowbytes) (hle : s.hasAbove = true → s.rowbytes.toNat ≤ s.dfOpos.toNat)
    (hread : ∀ a, a < s.dfOpos.toNat → t.obuf.read a = s.obuf.read a) : t.rowAbove = s.rowAbove := by
  unfold State.rowAbove
  rw [hr, ho, hb]
  split
  · rfl
  · next hrow =>
    have := hle (decide_eq_true (Nat.pos_of_ne_zero hrow))
    exact Memory.readBytes_congr fun k hk => hread _ (by omega)

/-- A byte step before the last byte of a row stays inside the row. -/
theorem State.InRow.byteDone_inRow (h : s.InRow prev raw (x :: rest)) (hrest : rest ≠ []) :
    (s.byteDone prev raw x).InRow prev (s.rowDone prev raw x) rest := by
  obtain ⟨-, -, -, hpos⟩ := h.inv.clause h.phase
  obtain ⟨hcol, hrow, hfpos, hopos, -⟩ := h.byteDone_position hrest
  have hsame : s.SameRun (s.byteDone prev raw x) := byteDone_sameRun
  have hlen : (s.rowDone prev raw x).length = raw.length + 1 := List.length_append ..
  obtain ⟨-, hfilt⟩ := Memory.readBytes_cons h.filtered
  constructor
  case inv => exact h.byteDone_inv
  case phase => exact hsame.phase.trans h.phase
  case host => exact hsame.host.trans h.host
  case col => rw [hcol, hlen]
  case length =>
    have := h.length
    rw [List.length_cons] at this
    rw [hlen, hsame.rowbytes]
    omega
  case above =>
    rw [← h.above]
    exact rowAbove_congr hrow hopos hsame.rowbytes hpos.rowbytes_le_opos fun a ha => h.byteDone_others (.inl ha)
  case done =>
    rw [hopos, hlen]
    exact h.byteDone_row
  case filtered =>
    rw [hsame.fbuf, hfpos, hlen, ← Nat.add_assoc]
    exact hfilt

end Row

/-! ## One row -/

/-- What a whole row leaves: its raw bytes in OBUF at its place, every other byte as before, the position at the next
row, and the rest of the run as it was (44_defilter.md R211, R213). -/
structure State.RowEnd (s t : State) (out : List Byte) : Prop where
  inv : t.Inv
  row : t.obuf.readBytes s.dfOpos.toNat s.rowbytes.toNat = some out
  others : ∀ a, a < s.dfOpos.toNat ∨ s.dfOpos.toNat + s.rowbytes.toNat ≤ a → t.obuf.read a = s.obuf.read a
  dfRow : t.dfRow.toNat = s.dfRow.toNat + 1
  dfCol : t.dfCol = 0
  dfFpos : t.dfFpos.toNat = s.dfFpos.toNat + 1 + s.rowbytes.toNat
  dfOpos : t.dfOpos.toNat = s.dfOpos.toNat + s.rowbytes.toNat
  same : s.SameRun t

/-- The byte steps of the rest of a row compute the loop of the row function (44_defilter.md R213). -/
theorem State.InRow.run {s : State} {prev raw : List Byte} {x : Byte} {rest : List Byte}
    (inflate : List Byte → InflateResult) (h : s.InRow prev raw (x :: rest)) :
    ∃ t, runWith inflate (rest.length + 1) s = .next t
      ∧ s.RowEnd t (defilterFrom s.dfFtype s.bpp.toNat prev raw (x :: rest)) := by
  induction rest generalizing s raw x with
  | nil =>
    obtain ⟨hrow, hcol, hfpos, hopos⟩ := h.byteDone_rowEnd
    have hlen : raw.length + 1 = s.rowbytes.toNat := h.length
    refine ⟨_, runWith_succ inflate 0 (h.step inflate), ?_⟩
    constructor
    case inv => exact h.byteDone_inv
    case row => rw [← hlen]; exact h.byteDone_row
    case others => exact fun a ha => h.byteDone_others ha
    case same => exact byteDone_sameRun
    all_goals assumption
  | cons y rest ih =>
    have hin := h.byteDone_inRow (List.cons_ne_nil y rest)
    have hsame : s.SameRun (s.byteDone prev raw x) := byteDone_sameRun
    obtain ⟨-, hrow, hfpos, hopos, hft⟩ := h.byteDone_position (List.cons_ne_nil y rest)
    obtain ⟨t, hrun, hend⟩ := ih hin
    refine ⟨t, (runWith_succ inflate _ (h.step inflate)).trans hrun, ?_⟩
    obtain ⟨hinv, hout, hothers, hr, hc, hf, ho, hrest⟩ := hend
    rw [hopos, hsame.rowbytes] at hout hothers ho
    rw [hfpos, hsame.rowbytes] at hf
    rw [hrow] at hr
    rw [hft, hsame.bpp] at hout
    refine ⟨hinv, hout, fun a ha => ?_, hr, hc, hf, ho, hsame.trans hrest⟩
    rw [hothers a ha, h.byteDone_others ha]

/-- The step of a row start whose row lies inside FBUF (44_defilter.md R202). -/
theorem stepWith_rowEntered (inflate : List Byte → InflateResult) {s : State} {ft : FilterType} (hp : s.phase = .defilter)
    (hh : s.host = []) (hcol : s.dfCol = 0) (hrow : s.dfRow ≠ s.height)
    (hlen : s.dfFpos.toNat + 1 + s.rowbytes.toNat ≤ s.fLen.toNat) (hft : s.fbuf.read s.dfFpos.toNat = some ft.byte) :
    stepWith inflate s = .next (rowStart ft s) := by
  rw [stepWith_rowStart inflate hp hh hcol, fetchRow_run hrow hlen hft, afterFetch_run, exec_scanline,
    scanline_start (by rw [hcol]; rfl)]

/-- The steps of one row compute the row function (44_defilter.md R213). -/
theorem run_row (inflate : List Byte → InflateResult) {s : State} {ft : FilterType} {filt prev : List Byte}
    (hs : s.Inv) (hp : s.phase = .defilter) (hh : s.host = []) (hcol : s.dfCol = 0) (hrow : s.dfRow ≠ s.height)
    (hlen : s.dfFpos.toNat + 1 + s.rowbytes.toNat ≤ s.fLen.toNat) (hft : s.fbuf.read s.dfFpos.toNat = some ft.byte)
    (hfilt : s.filteredRow = some filt) (habove : s.rowAbove = some prev) :
    ∃ t, runWith inflate (1 + s.rowbytes.toNat) s = .next t
      ∧ s.RowEnd t (defilterRow ft filt prev s.bpp.toNat) := by
  obtain ⟨-, -, -, hpos⟩ := hs.clause hp
  have hstep := stepWith_rowEntered inflate hp hh hcol hrow hlen hft
  have hinv : (rowStart ft s).Inv := (blockMove_of_stepWith hh hstep).inv hs
  have hfl := Memory.readBytes_length hfilt
  cases filt with
  | nil =>
    have hempty : s.rowbytes.toNat = 0 := hfl.symm
    have hr : s.dfRow.toNat < s.height.toNat := Nat.lt_of_le_of_ne hpos.1 (fun h => hrow (BitVec.eq_of_toNat_eq h))
    obtain ⟨hr', hf', ho'⟩ := nextRow_toNat_of_position hpos hr hlen
    rw [rowStart, if_pos hempty] at hstep hinv
    refine ⟨_, by rw [hempty]; exact runWith_succ inflate 0 hstep, hinv, ?_, fun _ _ => rfl, hr', rfl, hf', ho', ?_⟩
    · rw [hempty]
      rfl
    · constructor <;> rfl
  | cons x rest =>
    have hne : s.rowbytes.toNat ≠ 0 := by rw [← hfl]; exact Nat.succ_ne_zero _
    rw [rowStart, if_neg hne] at hstep hinv
    have hin : State.InRow { s with dfFtype := ft, dfCol := 1#64 } prev [] (x :: rest) := by
      refine ⟨hinv, hp, hh, rfl, by simpa using hfl, habove, rfl, ?_⟩
      rw [hfl]
      exact hfilt
    obtain ⟨t, hrun, hend⟩ := hin.run inflate
    obtain ⟨hinv', hout, hothers, hr, hc, hf, ho, hsame⟩ := hend
    refine ⟨t, ?_, hinv', hout, hothers, hr, hc, hf, ho, ?_⟩
    · rw [Nat.add_comm, runWith_succ inflate _ hstep, ← hfl]
      exact hrun
    · exact ⟨hsame.phase, hsame.host, hsame.fbuf, hsame.bpp, hsame.rowbytes, hsame.height, hsame.fLen,
        hsame.excessReject⟩

/-- Settles O36: a row start and the byte steps of the row, each byte the row function's next. -/
theorem rowStepsComputeTheRowFunction : Obligations.RowStepsComputeTheRowFunction := by
  intro inflate s ft filt prev hs hp hh hcol hrow hlen hft hfilt habove
  obtain ⟨t, hrun, hend⟩ := run_row inflate hs hp hh hcol hrow hlen hft hfilt habove
  exact ⟨t, hrun, hend.row, hend.others, hend.dfRow, hend.dfCol, hend.dfFpos, hend.dfOpos,
    hend.same.phase.trans hp, hend.same.host.trans hh, hend.same.fbuf, hend.same.bpp, hend.same.rowbytes,
    hend.same.height, hend.same.fLen⟩

/-! ## The image -/

/-- The row above a row that has just been left is the row reconstructed (44_defilter.md R213). -/
theorem State.RowEnd.rowAbove {s t : State} {out : List Byte} (h : s.RowEnd t out) : t.rowAbove = some out := by
  unfold State.rowAbove
  rw [if_neg (by rw [h.dfRow]; exact Nat.succ_ne_zero _), h.dfOpos, h.same.rowbytes, Nat.add_sub_cancel]
  exact h.row

/-- The finishing step (44_defilter.md R211, R212). -/
theorem stepWith_finish (inflate : List Byte → InflateResult) {s : State} (hp : s.phase = .defilter) (hh : s.host = [])
    (hcol : s.dfCol = 0) (hrow : s.dfRow = s.height) (hexcess : s.excessReject = false) :
    stepWith inflate s = .next { s with oLen := s.dfOpos, phase := .done } := by
  rw [stepWith_rowStart inflate hp hh hcol, fetchRow, if_pos hrow]
  simp [afterFetch, finish, hexcess]

/-- From a row start on, the steps of the rows left and the finishing step reconstruct them one after the other
(44_defilter.md R211, R213). -/
theorem run_rows (inflate : List Byte → InflateResult) (rows : List (FilterType × List Byte)) {s : State}
    {prev : List Byte} (hs : s.Inv) (hp : s.phase = .defilter) (hh : s.host = []) (hcol : s.dfCol = 0)
    (hexcess : s.excessReject = false) (hrows : s.dfRow.toNat + rows.length = s.height.toNat)
    (hwidth : ∀ r ∈ rows, r.2.length = s.rowbytes.toNat)
    (hlen : s.dfFpos.toNat + rows.length * (1 + s.rowbytes.toNat) ≤ s.fLen.toNat)
    (hfbuf : s.fbuf.readBytes s.dfFpos.toNat (rows.length * (1 + s.rowbytes.toNat)) = some (encodeRows rows))
    (habove : s.rowAbove = some prev) :
    ∃ t, runWith inflate (rows.length * (1 + s.rowbytes.toNat) + 1) s = .next t ∧ t.phase = .done
      ∧ t.oLen.toNat = s.height.toNat * s.rowbytes.toNat ∧ t.height = s.height ∧ t.rowbytes = s.rowbytes
      ∧ t.obuf.readBytes s.dfOpos.toNat (rows.length * s.rowbytes.toNat) = some (defilterRows s.bpp.toNat prev rows)
      ∧ ∀ a, a < s.dfOpos.toNat → t.obuf.read a = s.obuf.read a := by
  induction rows generalizing s prev with
  | nil =>
    obtain ⟨-, -, -, hpos⟩ := hs.clause hp
    have hrow : s.dfRow = s.height := BitVec.eq_of_toNat_eq hrows
    obtain ⟨hopos, -⟩ := hpos.finished (by rw [hcol]; rfl) hrow
    refine ⟨{ s with oLen := s.dfOpos, phase := .done }, ?_, rfl, hopos, rfl, rfl, ?_, fun _ _ => rfl⟩
    · rw [List.length_nil, Nat.zero_mul]
      exact runWith_succ inflate 0 (stepWith_finish inflate hp hh hcol hrow hexcess)
    · rw [List.length_nil, Nat.zero_mul]
      rfl
  | cons row rest ih =>
    obtain ⟨ft, filt⟩ := row
    rw [List.length_cons] at hrows
    have hfl : filt.length = s.rowbytes.toNat := hwidth _ List.mem_cons_self
    have hcount : (rest.length + 1) * (1 + s.rowbytes.toNat)
        = s.rowbytes.toNat + rest.length * (1 + s.rowbytes.toNat) + 1 := by rw [Nat.succ_mul]; omega
    rw [List.length_cons, hcount] at hlen hfbuf
    obtain ⟨hft, hbytes⟩ := Memory.readBytes_cons hfbuf
    obtain ⟨hfilt, hnext⟩ := Memory.readBytes_split hfl hbytes
    have hrow : s.dfRow ≠ s.height := fun h => by rw [h] at hrows; omega
    obtain ⟨t, hrun, hend⟩ := run_row inflate hs hp hh hcol hrow (by omega) hft hfilt habove
    have hsame := hend.same
    have hdone := ih (s := t) (prev := defilterRow ft filt prev s.bpp.toNat) hend.inv (hsame.phase.trans hp)
      (hsame.host.trans hh) hend.dfCol (hsame.excessReject.trans hexcess)
      (by rw [hend.dfRow, hsame.height]; omega)
      (fun r hr => by rw [hsame.rowbytes]; exact hwidth r (List.mem_cons_of_mem _ hr))
      (by rw [hend.dfFpos, hsame.rowbytes, hsame.fLen]; omega)
      (by rw [hsame.fbuf, hend.dfFpos, hsame.rowbytes]; exact hnext)
      hend.rowAbove
    rw [hsame.rowbytes, hsame.height, hsame.bpp, hend.dfOpos] at hdone
    obtain ⟨u, hrun', hphase, holen, hheight, hrb, hout, hothers⟩ := hdone
    refine ⟨u, ?_, hphase, holen, hheight, hrb, ?_, fun a ha => ?_⟩
    · rw [List.length_cons, show (rest.length + 1) * (1 + s.rowbytes.toNat) + 1
        = 1 + s.rowbytes.toNat + (rest.length * (1 + s.rowbytes.toNat) + 1) by rw [hcount]; omega,
        runWith_add hrun]
      exact hrun'
    · rw [List.length_cons, Nat.succ_mul, Nat.add_comm]
      refine Memory.readBytes_append ?_ hout
      rw [← hend.row]
      exact Memory.readBytes_congr fun k hk => hothers _ (by omega)
    · rw [hothers a (by omega), hend.others a (.inl ha)]

/-- Settles O37: the rows of the image from row 0 on, above which there are zeros. -/
theorem defilterRunReconstructsTheImage : Obligations.DefilterRunReconstructsTheImage := by
  intro inflate s rows hs hp hh hrow hcol hexcess hrows hwidth hlen hfbuf
  obtain ⟨-, -, -, hpos⟩ := hs.clause hp
  obtain ⟨-, hfpos, hopos, -⟩ := hpos
  have hrow0 : s.dfRow.toNat = 0 := by rw [hrow]; rfl
  rw [hrow0, Nat.zero_mul] at hfpos hopos
  have habove : s.rowAbove = some (List.replicate s.rowbytes.toNat 0) := if_pos hrow0
  rw [hrows] at hlen hfbuf
  obtain ⟨t, hrun, hphase, holen, hheight, hrb, hout, -⟩ := run_rows inflate rows hs hp hh hcol hexcess
    (by rw [hrow0, Nat.zero_add, hrows]) hwidth (by rw [hfpos, Nat.zero_add]; exact hlen) (by rw [hfpos]; exact hfbuf)
    habove
  refine ⟨t, by rw [hrows]; exact hrun, hphase, holen, ?_⟩
  rw [State.samples, hheight, hrb, hrows, ← hopos]
  exact hout

end Sys2Proof.Machine
end

section
/-! PROOFS. The defilterer's instructions (44_defilter.md): rows entered and finished, neighbours, predictors, filtering
undone; and O27, O28, O29, O30, O34, O35, O38. -/

namespace Sys2Proof.Machine

/-! ## Row starts -/

theorem nextRow_eq (s : State) : nextRow s = { s with
    dfRow := s.dfRow + 1, dfFpos := s.dfFpos + 1 + s.rowbytes, dfOpos := s.dfOpos + s.rowbytes, dfCol := 0 } := by
  simp [nextRow, BitVec.ofNat_add]

/-- A row that is not empty is entered at its first byte (44_defilter.md R202). -/
theorem rowStart_nonempty {s : State} (ft : FilterType) (h : s.rowbytes ≠ 0) :
    rowStart ft s = { s with dfFtype := ft, dfCol := 1#64 } :=
  if_neg fun h0 => h (BitVec.eq_of_toNat_eq h0)

/-- An empty row is passed (44_defilter.md R202). -/
theorem rowStart_empty {s : State} (ft : FilterType) (h : s.rowbytes = 0) :
    rowStart ft s = nextRow { s with dfFtype := ft } :=
  if_pos (by rw [h]; rfl)

/-- Settles O29: the instruction at `DF.col` = 0 is the row start, which passes an empty row and enters any other. -/
theorem rowStartEntersTheRow : Obligations.RowStartEntersTheRow := by
  intro s ft hcol
  rw [exec_scanline, scanline_start (by rw [hcol]; rfl)]
  constructor
  · intro hne
    rw [rowStart_nonempty ft hne]
    rfl
  · intro hempty
    rw [rowStart_empty ft hempty, nextRow_eq]
    simp [hempty]

/-- A row that does not lie wholly inside FBUF (44_defilter.md R202). -/
theorem fetchRow_short {s : State} (hr : s.dfRow ≠ s.height)
    (hl : s.fLen.toNat < s.dfFpos.toNat + 1 + s.rowbytes.toNat) :
    fetchRow s = .trap .scanlineDataShort 0#32 (s.dfRow.setWidth 64) := by
  rw [fetchRow, if_neg hr, if_pos hl]

/-- A filter-type byte above 4 (44_defilter.md R202; 30_encoding.md R101). -/
theorem fetchRow_badFilterType {s : State} {b : Byte} (hr : s.dfRow ≠ s.height)
    (hl : s.dfFpos.toNat + 1 + s.rowbytes.toNat ≤ s.fLen.toNat) (hb : s.fbuf.read s.dfFpos.toNat = some b)
    (h4 : 4 < b.toNat) : fetchRow s = .trap .invalidFilterType 0#32 (s.dfRow.setWidth 64) := by
  rw [fetchRow, if_neg hr, if_neg (Nat.not_lt.mpr hl), hb]
  simp only [decodeScanline, instrOfFilterByte_none.mpr h4]

/-- Settles O30: the fetch at a row start checks the row's presence, then its filter type; after the last row the
excess check decides. -/
theorem rowStartErrorsAndFinish : Obligations.RowStartErrorsAndFinish := by
  intro s hp hh hcol
  rw [step_eq, stepWith_rowStart _ hp hh hcol]
  refine ⟨fun hr => ⟨fun hl => ?_, fun b hl hb h4 => ?_⟩, fun hr => ?_⟩
  · rw [fetchRow_short hr hl]
    rfl
  · rw [fetchRow_badFilterType hr hl hb h4]
    rfl
  · rw [fetchRow, if_pos hr]
    exact ⟨fun hx => congrArg Host.Outcome.next (if_pos hx), fun hx => congrArg Host.Outcome.next (if_neg hx)⟩

/-! ## Neighbours -/

theorem neighbour_eq_some {p : Prop} [Decidable p] {m : Memory} {addr : Nat} {b : Byte} :
    neighbour (decide p) m addr = some b ↔ if p then m.read addr = some b else b = 0 := by
  by_cases h : p
  · simp [neighbour, h]
  · simp [neighbour, h, eq_comm (a := b)]

/-- Settles O28: the fetch's four reads, each neighbour 0 where its condition fails. -/
theorem neighbourFetch : Obligations.NeighbourFetch := by
  intro s n
  rw [fetchNeighbours_ok]
  unfold State.hasAbove State.hasLeft
  rw [← Bool.decide_and, neighbour_eq_some, neighbour_eq_some, neighbour_eq_some]
  exact Iff.rfl

/-! ## Predictors -/

/-- Where upper-left equals left, above is at distance 0 (44_defilter.md R209). -/
theorem paethPredictor_upperLeft_eq_left (a b : Byte) : paethPredictor a b a = b := by
  have hb : paethDist a b a b = 0 := by simp only [paethDist, paethP]; omega
  have hc : paethDist a b a a = ((b.toNat : Int) - a.toNat).natAbs := by simp only [paethDist, paethP]; omega
  by_cases h : paethDist a b a a ≤ paethDist a b a b ∧ paethDist a b a a ≤ paethDist a b a a
  · rw [paethPredictor_left h]
    exact BitVec.eq_of_toNat_eq (by omega)
  · exact paethPredictor_above h (by omega)

/-- With nothing above, left is at distance 0 (44_defilter.md R209). -/
theorem paethPredictor_left_only (a : Byte) : paethPredictor a 0 0 = a := by
  refine paethPredictor_left ?_
  simp only [paethDist, paethP]
  omega

/-- Settles O27: the left edge is the case of upper-left equal to left, both 0. -/
theorem paethAtTheEdges : Obligations.PaethAtTheEdges :=
  fun a b => ⟨paethPredictor_upperLeft_eq_left a b, paethPredictor_left_only a, paethPredictor_upperLeft_eq_left 0 b⟩

theorem averagePredictor_toNat (a b : Byte) : (averagePredictor a b).toNat = (a.toNat + b.toNat) / 2 := by
  have ha := a.isLt
  have hb := b.isLt
  rw [averagePredictor, BitVec.toNat_ofNat, Nat.mod_eq_of_lt (by omega)]

/-- Settles O34: the byte step of the filter type AVG, whose predictor loses no bit of the sum. -/
theorem avgAddsTheFlooredMean : Obligations.AvgAddsTheFlooredMean := by
  intro s n hcol hn
  obtain ⟨t, ht, hres, hpaeth⟩ := exec_scanline_byteStepResult (ft := .average) rfl hcol hn
  exact ⟨t, _, ht, averagePredictor_toNat n.a n.b, hres, hpaeth⟩

/-- A byte step leaves what it is to leave, whatever its filter type latches besides (44_defilter.md R210). -/
theorem byteStep_byteStepResult (ft : FilterType) (n : Neighbours) (pr : Byte) (s : State) :
    ByteStepResult s (writeBack n pr (ft.latch n s)) n pr := by
  obtain ⟨raw, others, inRow, rowEnd, latches, -⟩ := writeBack_byteStepResult n pr s
  have hframe := byteStep_frame ft n pr s
  rw [writeBack_latch] at hframe ⊢
  exact ⟨raw, others, inRow, rowEnd, latches, by rw [hframe]⟩

/-- Settles O35: the byte step of the filter type PAETH, which latches the intermediates of its predictor. -/
theorem paethAddsThePaethPredictor : Obligations.PaethAddsThePaethPredictor := by
  intro s n hcol hn
  refine ⟨_, exec_scanline_byte .paeth hcol hn, byteStep_byteStepResult .paeth n _ s, ?_⟩
  rw [writeBack_latch]
  exact ⟨rfl, rfl, rfl, rfl⟩

/-! ## Filtering undone -/

/-- Defiltering the rest of a row filtered gives it back (44_defilter.md R215). -/
theorem defilterFrom_filterFrom (ft : FilterType) (bpp : Nat) (prev raw rest : List Byte) :
    defilterFrom ft bpp prev raw (filterFrom ft bpp prev raw rest) = raw ++ rest := by
  induction rest generalizing raw with
  | nil => rw [filterFrom, defilterFrom, List.append_nil]
  | cons r rest ih => rw [filterFrom, defilterFrom, BitVec.sub_add_cancel, ih, List.append_assoc, List.singleton_append]

/-- What defiltering adds to the raw bytes filters back to what was given (44_defilter.md R215). -/
theorem filterFrom_defilterFrom (ft : FilterType) (bpp : Nat) (prev raw filt : List Byte) :
    ∃ out, defilterFrom ft bpp prev raw filt = raw ++ out ∧ filterFrom ft bpp prev raw out = filt := by
  induction filt generalizing raw with
  | nil => exact ⟨[], (List.append_nil raw).symm, rfl⟩
  | cons x filt ih =>
    obtain ⟨out, hout, hback⟩ := ih (raw ++ [x + rowPredict ft bpp prev raw])
    refine ⟨(x + rowPredict ft bpp prev raw) :: out, ?_, ?_⟩
    · rw [defilterFrom, hout, List.append_assoc, List.singleton_append]
    · rw [filterFrom, hback, BitVec.add_sub_cancel]

/-- Settles O38: byte by byte, adding the predictor undoes subtracting it, and each predictor is formed from the same raw
bytes. -/
theorem defilteringInvertsFiltering : Obligations.DefilteringInvertsFiltering := by
  intro ft row prev bpp
  obtain ⟨out, hout, hback⟩ := filterFrom_defilterFrom ft bpp prev [] row
  rw [List.nil_append] at hout
  exact ⟨defilterFrom_filterFrom ft bpp prev [] row, by rw [defilterRow, hout]; exact hback⟩

/-! ## What the fetch finds -/

/-- The fetch in phase DEFILTER finds a scanline instruction, if any (44_defilter.md R202). -/
theorem fetchScanline_run {s : State} {i : Instr} (h : fetchScanline s = .run i) : ∃ ft : FilterType, i = ft.instr := by
  unfold fetchScanline at h
  split at h
  · rcases fetchRow_cases s with ⟨-, hf⟩ | ⟨c, -, hf⟩ | ⟨hf, -⟩ | ⟨ft, hf, -⟩ <;> rw [hf] at h <;> cases h
    exact ⟨ft, rfl⟩
  · cases h
    exact ⟨_, rfl⟩

end Sys2Proof.Machine
end

section
/-! PROOFS. The final pass (42_assembler.md R170 to R176): what it accepts, reports and derives, and O22, O23, O24. -/

namespace Sys2Proof.Machine

/-! ## What the final pass does -/

/-- A failing check is raised with tag 0 at the final cursor (42_assembler.md R173; 10_state.md R33). -/
theorem finalPass_of_cause {s : State} {c : Cause} (h : finalCause s = some c) :
    finalPass s = .next (raise c 0#32 s.feCursor s) := by
  simp only [finalPass, h]

/-- A legal image of a DECODE or PARSE run is handed on (42_assembler.md R174 to R176). -/
theorem finalPass_of_legal {s : State} (h : s.legalImage) (hcmd : s.cmdLatch = .decode ∨ s.cmdLatch = .parse) :
    finalPass s = .next { deriveRow s with phase := if s.cmdLatch = .parse then .done else .inflate } := by
  rcases hcmd with hc | hc <;> simp [finalPass, finalCause_none.mpr h, hc]

/-- The final pass of a DECODE or PARSE run goes on exactly on a legal image (42_assembler.md R173). -/
theorem finalPass_goes_on_iff {s : State} (hcmd : s.cmdLatch = .decode ∨ s.cmdLatch = .parse) :
    (∃ t, finalPass s = .next t ∧ t.phase ≠ .error) ↔ s.legalImage := by
  constructor
  · rintro ⟨t, ht, hne⟩
    rw [← finalCause_none]
    cases hc : finalCause s with
    | none => rfl
    | some c =>
      rw [finalPass_of_cause hc] at ht
      cases ht
      exact absurd (raise_phase ..) hne
  · intro h
    exact ⟨_, finalPass_of_legal h hcmd, by dsimp only; split <;> exact nofun⟩

/-! ## Legality, written out -/

/-- The legal depths of each colour model (42_assembler.md R170). -/
theorem mem_legalDepths (cm : ColorModel) (d : Byte) : d ∈ legalDepths cm ↔
    (cm, d.toNat) ∈ [(ColorModel.greyscale, 1), (ColorModel.greyscale, 2), (ColorModel.greyscale, 4),
      (ColorModel.greyscale, 8), (ColorModel.greyscale, 16), (ColorModel.greyAlpha, 8), (ColorModel.greyAlpha, 16),
      (ColorModel.rgb, 8), (ColorModel.rgb, 16), (ColorModel.rgbAlpha, 8), (ColorModel.rgbAlpha, 16),
      (ColorModel.indexed, 1), (ColorModel.indexed, 2), (ColorModel.indexed, 4), (ColorModel.indexed, 8)] := by
  cases cm <;> revert d <;> decide

/-- The colour models for which a palette is forbidden (42_assembler.md R171). -/
theorem paletteForbiddenFor_iff {cm : ColorModel} :
    paletteForbiddenFor cm = true ↔ cm = .greyscale ∨ cm = .greyAlpha := by
  cases cm <;> decide

/-- Settles O22: the pass goes on exactly on a legal image, whose three demands are the statement's. -/
theorem finalPassAcceptsExactlyLegalImages : Obligations.FinalPassAcceptsExactlyLegalImages := by
  intro s hp hh hcmd
  rw [step_eq, stepWith_final _ hp hh, finalPass_goes_on_iff hcmd, ← mem_legalDepths]
  refine and_congr_right' (and_congr ?_ ?_)
  · rw [paletteForbiddenFor_iff, not_and, Bool.not_eq_true]
  · rw [Nat.one_le_iff_ne_zero]

/-- Settles O23: the checks of the pass in their order, the earlier ones passed. -/
theorem finalPassReportsTheFirstFailure : Obligations.FinalPassReportsTheFirstFailure := by
  intro s hp hh
  rw [step_eq, stepWith_final _ hp hh]
  refine ⟨fun hd => finalPass_of_cause (if_pos hd), fun hd => ⟨?forbidden, ?missing, ?tooLong⟩⟩
  case forbidden =>
    intro hcm hpal
    exact finalPass_of_cause (by simp [finalCause, hd, paletteForbiddenFor_iff.mpr hcm, hpal])
  case missing =>
    intro hcm hnone
    rw [hcm] at hd
    exact finalPass_of_cause (by simp only [finalCause, hcm, hd, hnone]; rfl)
  case tooLong =>
    intro hcm hpal hlong
    rw [hcm] at hd
    have hlen : s.pal.length ≠ 0 := Nat.ne_zero_of_lt hlong
    exact finalPass_of_cause (by simp only [finalCause, hcm, hd, hpal, hlen, hlong]; rfl)

/-- The channel counts of 42_assembler.md R174. -/
theorem channels_of_mem {cm : ColorModel} {channels : Nat}
    (h : (cm, channels) ∈ [(ColorModel.greyscale, 1), (ColorModel.indexed, 1), (ColorModel.greyAlpha, 2),
      (ColorModel.rgb, 3), (ColorModel.rgbAlpha, 4)]) : channels = cm.channels := by
  cases cm <;> simpa [ColorModel.channels] using h

/-- Settles O24: the numbers of R174 fit `BPP` and `ROWBYTES`. -/
theorem finalPassDerivesTheRowParameters : Obligations.FinalPassDerivesTheRowParameters := by
  intro s channels hp hh hcmd hlegal hch
  obtain rfl := channels_of_mem hch
  obtain ⟨hbpp, hlow, hhigh⟩ := deriveRow_bpp_toNat hlegal
  obtain ⟨hrow, -⟩ := deriveRow_rowbytes_toNat hlegal
  rw [step_eq, stepWith_final _ hp hh]
  exact ⟨_, finalPass_of_legal hlegal hcmd, hbpp, hlow, hhigh, hrow, rfl⟩

end Sys2Proof.Machine
end

section
/-! PROOFS. The chunk instructions (41_chunk_decoders.md, 42_assembler.md), each through the shared chunk step: O7 to O11
and O13 to O19. -/

namespace Sys2Proof.Machine

/-! ## The shared chunk step -/

section Shared
variable {s : State} {tag : Word32} {dec : List Byte → Except Cause ChunkRecord} {p : List Byte} {r : ChunkRecord}

/-- The chunk step where the assembler answers an error: it is raised from the state before (40_framing.md R129;
60_exceptions.md R238). -/
theorem chunkBody_assemble_error {c : Cause} (hdec : dec p = .ok r) (hsum : s.checksumPresent p.length)
    (hasm : assemble r (advanceFrame tag p.length s) = .error c) :
    chunkBody tag dec p s = .next (raise c tag s.feCursor s) := by
  rw [chunkBody_assemble hdec hsum, hasm]

/-- The chunk step of a record that is no header, after a header: its transition decides (42_assembler.md R160). -/
theorem chunkBody_transition {t : State} (hdec : dec p = .ok r) (hr : r.isHeader = false) (hs : s.hdrSeen = true)
    (hsum : s.checksumPresent p.length) (htr : transition r (advanceFrame tag p.length s) = .ok t) :
    chunkBody tag dec p s = .next (endOfStream t) :=
  chunkBody_completed hdec hsum ((assemble_after_header (s := advanceFrame tag p.length s) hr hs).trans htr)

/-- The same, where the transition fails. -/
theorem chunkBody_transition_error {c : Cause} (hdec : dec p = .ok r) (hr : r.isHeader = false) (hs : s.hdrSeen = true)
    (hsum : s.checksumPresent p.length) (htr : transition r (advanceFrame tag p.length s) = .error c) :
    chunkBody tag dec p s = .next (raise c tag s.feCursor s) :=
  chunkBody_assemble_error hdec hsum ((assemble_after_header (s := advanceFrame tag p.length s) hr hs).trans htr)

end Shared

/-! ## The instructions over the shared chunk step -/

theorem exec_ihdr (p : List Byte) (s : State) : exec (.ihdr p) s = chunkBody 0x49484452#32 decodeIhdr p s := rfl

theorem exec_plte (p : List Byte) (s : State) : exec (.plte p) s = chunkBody 0x504C5445#32 decodePlte p s := rfl

theorem exec_idat (p : List Byte) (s : State) : exec (.idat p) s = chunkBody 0x49444154#32 decodeIdat p s := rfl

theorem exec_bkgd (p : List Byte) (s : State) : exec (.bkgd p) s = chunkBody 0x624B4744#32 decodeBkgd p s := rfl

theorem exec_trns (p : List Byte) (s : State) : exec (.trns p) s = chunkBody 0x74524E53#32 decodeTrns p s := rfl

/-! ## Every chunk -/

/-- Settles O18: the gate stops every record that is no header (42_assembler.md R160). -/
theorem headerFirstGate : Obligations.HeaderFirstGate := by
  intro s i hacc hne hhdr hsum
  obtain ⟨hf, r, hdec, hheader⟩ := decoderOf_ok hacc
  have hr : r.isHeader = false := by
    rw [← Bool.not_eq_true, hheader]
    exact fun ⟨p, hp⟩ => hne p hp
  rw [exec_chunk hf]
  exact chunkBody_assemble_error hdec hsum (by simp [assemble, hr, hhdr])

/-- Settles O19: the checksum is looked for once the decoder has accepted (40_framing.md R126, R129). -/
theorem missingChecksumIsAnError : Obligations.MissingChecksumIsAnError := by
  intro s i hacc hshort
  obtain ⟨hf, r, hdec, -⟩ := decoderOf_ok hacc
  rw [exec_chunk hf]
  exact chunkBody_no_checksum hdec hshort

/-! ## IHDR -/

/-- The colour-model byte mapping, row by row (30_encoding.md R95). -/
theorem colorModelOfByte_of_mem {m : Byte} {cm : ColorModel}
    (h : (m, cm) ∈ [(0#8, ColorModel.greyscale), (2#8, ColorModel.rgb), (3#8, ColorModel.indexed),
      (4#8, ColorModel.greyAlpha), (6#8, ColorModel.rgbAlpha)]) : colorModelOfByte m = some cm := by
  simp only [List.mem_cons, Prod.mk.injEq, List.not_mem_nil, or_false] at h
  rcases h with ⟨rfl, rfl⟩ | ⟨rfl, rfl⟩ | ⟨rfl, rfl⟩ | ⟨rfl, rfl⟩ | ⟨rfl, rfl⟩ <;> rfl

/-- IHDR accepts 13 bytes with a colour-model byte of the map (41_chunk_decoders.md R140). -/
theorem decodeIhdr_ok {p : List Byte} {cm : ColorModel} (hlen : p.length = 13)
    (hcm : colorModelOfByte (byteAt p 9) = some cm) :
    decodeIhdr p = .ok (.header (wordAt p 0) (wordAt p 4) (byteAt p 8) cm (decide (byteAt p 12 = 1#8))) := by
  rw [decodeIhdr, if_neg (not_not.mpr hlen), hcm]

/-- Settles O7: the 13 bytes decode to the header, which the gate lets through and the transition stores. -/
theorem ihdrStoresTheHeader : Obligations.IhdrStoresTheHeader := by
  intro s w0 w1 w2 w3 h0 h1 h2 h3 d m x y il cm hcm hhdr hsum
  have hdec := decodeIhdr_ok (p := [w0, w1, w2, w3, h0, h1, h2, h3, d, m, x, y, il]) rfl
    (colorModelOfByte_of_mem hcm)
  have hil : decide (il = 1#8) = decide (il.toNat = 1) := decide_eq_decide.mpr BitVec.toNat_eq
  rw [exec_ihdr]
  refine (chunkBody_completed hdec hsum (if_neg (by simp [ChunkRecord.isHeader, hhdr]))).trans ?_
  rw [← hil]
  rfl

/-- Settles O8: the decoder's two checks, then the gate. -/
theorem ihdrErrors : Obligations.IhdrErrors := by
  intro s p
  rw [exec_ihdr]
  refine ⟨fun hlen => ?length, fun hlen hcm => ?colorModel, fun hlen hcm hsum hhdr => ?duplicate⟩
  case length => exact chunkBody_decoder_error (if_pos hlen) s
  case colorModel =>
    refine chunkBody_decoder_error (c := .invalidColorModelByte) ?_ s
    have hnone : colorModelOfByte (byteAt p 9) = none := colorModelOfByte_none.mpr hcm
    rw [decodeIhdr, if_neg (not_not.mpr hlen), hnone]
  case duplicate =>
    obtain ⟨cm, hcm'⟩ := Option.ne_none_iff_exists'.mp fun hn => colorModelOfByte_none.mp hn hcm
    exact chunkBody_assemble_error (decodeIhdr_ok hlen hcm') (hlen ▸ hsum)
      (if_pos (by simp [ChunkRecord.isHeader, hhdr]))

/-! ## PLTE -/

/-- The entries written out three bytes each are read back (30_encoding.md R96). -/
theorem palEntries_flatMap (entries : List PalEntry) :
    palEntries (entries.flatMap fun e => [e.r, e.g, e.b]) = entries := by
  induction entries with
  | nil => rfl
  | cons e entries ih =>
    rw [List.flatMap_cons]
    exact congrArg (e :: ·) ih

theorem length_flatMap_entries (entries : List PalEntry) :
    (entries.flatMap fun e => [e.r, e.g, e.b]).length = 3 * entries.length := by
  induction entries with
  | nil => rfl
  | cons e entries ih =>
    rw [List.flatMap_cons, List.length_append, ih, List.length_cons]
    simp only [List.length_cons, List.length_nil]
    omega

/-- PLTE accepts a multiple of three bytes (41_chunk_decoders.md R141). -/
theorem decodePlte_ok {p : List Byte} (h : p.length % 3 = 0) : decodePlte p = .ok (.palette (palEntries p)) :=
  if_neg (not_not.mpr h)

/-- Settles O9: the entries decode to themselves, and the transition stores them. -/
theorem plteStoresThePalette : Obligations.PlteStoresThePalette := by
  intro s entries hhdr hpal hbkgd hsum
  have hlen := length_flatMap_entries entries
  have hdec := decodePlte_ok (p := entries.flatMap fun e => [e.r, e.g, e.b]) (by omega)
  rw [palEntries_flatMap] at hdec
  rw [exec_plte]
  refine (chunkBody_transition hdec rfl hhdr (by rw [hlen]; exact hsum) (t := { advanceFrame 0x504C5445#32
    (3 * entries.length) s with pal := entries, palSeen := true }) ?_)
  rw [hlen]
  simp only [transition, paletteRecord, advanceFrame_palSeen, advanceFrame_bkgdSeen, hpal, hbkgd]
  rfl

/-- Settles O10: the decoder's check, then the two of the transition. -/
theorem plteErrors : Obligations.PlteErrors := by
  intro s p
  rw [exec_plte]
  refine ⟨fun hlen => ?length, fun hlen hhdr hsum hpal => ?duplicate, fun hlen hhdr hsum hpal hbkgd => ?late⟩
  case length => exact chunkBody_decoder_error (if_pos hlen) s
  case duplicate =>
    exact chunkBody_transition_error (decodePlte_ok hlen) rfl hhdr hsum (if_pos hpal)
  case late =>
    refine chunkBody_transition_error (decodePlte_ok hlen) rfl hhdr hsum ?_
    simp [transition, paletteRecord, hpal, hbkgd]

/-! ## IDAT -/

/-- Settles O11: the transition appends at `ZLEN`, and the sum fits the register. -/
theorem idatAppendsToZbuf : Obligations.IdatAppendsToZbuf := by
  intro s p hhdr hsum hfits
  have hbody := chunkBody_transition (tag := 0x49444154#32) (dec := decodeIdat) rfl rfl hhdr hsum rfl
  refine ⟨_, (exec_idat _ s).trans hbody, ?_⟩
  rw [endOfStream_frame]
  refine ⟨?zlen, rfl, fun k hk => ?written, fun a ha => ?others, ?frame⟩
  case zlen => exact (BitVec.toNat_ofNat ..).trans (Nat.mod_eq_of_lt hfits)
  case written =>
    refine (Memory.read_writeBytes p s.zbuf s.zlen.toNat _).trans ?_
    rw [if_pos (by omega), Nat.add_sub_cancel_left]
  case others => exact (Memory.read_writeBytes p s.zbuf s.zlen.toNat a).trans (if_neg (by omega))
  case frame =>
    rw [endOfStream, endOfStream]
    dsimp only
    split <;> rfl

/-! ## bKGD -/

/-- Settles O13: the length selects the shape, which fits the colour model. -/
theorem bkgdStoresTheBackground : Obligations.BkgdStoresTheBackground := by
  intro s b0 b1 b2 b3 b4 b5 hhdr hdata
  have store {p : List Byte} {v : BackgroundValue} (hdec : decodeBkgd p = .ok (.background v))
      (hfit : backgroundFits s.colorModel v = true) (hsum : s.checksumPresent p.length) :
      exec (.bkgd p) s = .next (endOfStream { storeBackground v (advanceFrame 0x624B4744#32 p.length s) with
        bkgdSeen := true }) := by
    rw [exec_bkgd]
    refine chunkBody_transition hdec rfl hhdr hsum ?_
    simp [transition, backgroundRecord, hdata, hfit]
  refine ⟨fun hcm hsum => ?_, fun hcm hsum => ?_, fun hcm hsum => ?_⟩
  · exact store (p := [b0]) rfl (by rw [hcm]; rfl) hsum
  · exact store (p := [b0, b1]) rfl (by rcases hcm with hcm | hcm <;> rw [hcm] <;> rfl) hsum
  · exact store (p := [b0, b1, b2, b3, b4, b5]) rfl (by rcases hcm with hcm | hcm <;> rw [hcm] <;> rfl) hsum

/-- The payload length that a background value is decoded from (41_chunk_decoders.md R144). -/
def BackgroundValue.size : BackgroundValue → Nat
  | .paletteIndex _ => 1
  | .grey _ => 2
  | .rgb _ _ _ => 6

/-- bKGD accepts 1, 2 or 6 bytes, as a value of that size (41_chunk_decoders.md R144). -/
theorem decodeBkgd_ok {p : List Byte} (h : p.length ∈ [1, 2, 6]) :
    ∃ v, decodeBkgd p = .ok (.background v) ∧ v.size = p.length := by
  simp only [List.mem_cons, List.not_mem_nil, or_false] at h
  rcases h with h | h | h
  · exact ⟨.paletteIndex (byteAt p 0), by simp [decodeBkgd, h], h.symm⟩
  · exact ⟨.grey (halfAt p 0), by simp [decodeBkgd, h], h.symm⟩
  · exact ⟨.rgb (halfAt p 0) (halfAt p 2) (halfAt p 4), by simp [decodeBkgd, h], h.symm⟩

/-- Which sizes fit which colour models (42_assembler.md R164; 92_eei_decisions.md D17). -/
theorem backgroundFits_iff (cm : ColorModel) (v : BackgroundValue) : backgroundFits cm v = true ↔
    (cm, v.size) ∈ [(ColorModel.indexed, 1), (ColorModel.greyscale, 2), (ColorModel.greyAlpha, 2), (ColorModel.rgb, 6),
      (ColorModel.rgbAlpha, 6)] := by
  cases v <;> cases cm <;> simp [backgroundFits, BackgroundValue.size]

/-- Settles O14: the decoder's check, then the two of the transition. -/
theorem bkgdErrors : Obligations.BkgdErrors := by
  intro s p
  rw [exec_bkgd]
  refine ⟨fun hlen => ?length, fun hlen hhdr hsum hdata => ?late, fun hlen hhdr hsum hdata hshape => ?shape⟩
  case length =>
    simp only [List.mem_cons, List.not_mem_nil, or_false, not_or] at hlen
    obtain ⟨h1, h2, h6⟩ := hlen
    exact chunkBody_decoder_error (by simp [decodeBkgd, h1, h2, h6]) s
  case late =>
    obtain ⟨v, hdec, -⟩ := decodeBkgd_ok hlen
    exact chunkBody_transition_error hdec rfl hhdr hsum (if_pos hdata)
  case shape =>
    obtain ⟨v, hdec, hsize⟩ := decodeBkgd_ok hlen
    refine chunkBody_transition_error hdec rfl hhdr hsum ?_
    have hno : backgroundFits s.colorModel v = false := by
      rwa [← Bool.not_eq_true, backgroundFits_iff, hsize]
    simp [transition, backgroundRecord, hdata, hno]

/-! ## tRNS -/

section Transparency
variable (raw : List Byte) {s : State}

theorem transparencyRecord_forbidden (h : s.colorModel = .greyAlpha ∨ s.colorModel = .rgbAlpha) :
    transparencyRecord raw s = .error .transparencyForbidden := by
  rcases h with h | h <;> simp only [transparencyRecord, h]

theorem transparencyRecord_greyscale (h : s.colorModel = .greyscale) : transparencyRecord raw s =
    if raw.length ≠ 2 then .error .transparencyShapeMismatch
    else .ok { s with trnsKind := .greyKey, trnsGrey := halfAt raw 0, trnsSeen := true } := by
  unfold transparencyRecord
  split <;> simp_all

theorem transparencyRecord_rgb (h : s.colorModel = .rgb) : transparencyRecord raw s =
    if raw.length ≠ 6 then .error .transparencyShapeMismatch
    else .ok { s with
      trnsKind := .rgbKey, trnsR := halfAt raw 0, trnsG := halfAt raw 2, trnsB := halfAt raw 4, trnsSeen := true } := by
  unfold transparencyRecord
  split <;> simp_all

theorem transparencyRecord_indexed (h : s.colorModel = .indexed) : transparencyRecord raw s =
    if s.palSeen = false then .error .transparencyBeforePalette
    else if s.pal.length < raw.length then .error .transparencyShapeMismatch
    else .ok { s with
      trnsKind := .alphaList
      trnsAlpha := raw ++ List.replicate (s.pal.length - raw.length) 255#8
      trnsSeen := true } := by
  unfold transparencyRecord
  split <;> simp_all

end Transparency

section Trns
variable {s t : State} {raw : List Byte}

/-- tRNS accepts every payload, so that after a header its transition decides (41_chunk_decoders.md R145). -/
theorem exec_trns_completed (hhdr : s.hdrSeen = true) (hsum : s.checksumPresent raw.length)
    (h : transparencyRecord raw (advanceFrame 0x74524E53#32 raw.length s) = .ok t) :
    exec (.trns raw) s = .next (endOfStream t) :=
  (exec_trns _ s).trans (chunkBody_transition rfl rfl hhdr hsum h)

theorem exec_trns_error {c : Cause} (hhdr : s.hdrSeen = true) (hsum : s.checksumPresent raw.length)
    (h : transparencyRecord raw (advanceFrame 0x74524E53#32 raw.length s) = .error c) :
    exec (.trns raw) s = .next (raise c 0x74524E53#32 s.feCursor s) :=
  (exec_trns _ s).trans (chunkBody_transition_error rfl rfl hhdr hsum h)

end Trns

/-- A list padded to a length reads as its own entries and then the pad (42_assembler.md R165). -/
theorem getElem?_padded {raw : List Byte} {n k : Nat} (hlen : raw.length ≤ n) (hk : k < n) (pad : Byte) :
    (raw ++ List.replicate (n - raw.length) pad)[k]? = some (raw.getD k pad) := by
  by_cases h : k < raw.length
  · rw [List.getElem?_append_left h, List.getD_eq_getElem?_getD, List.getElem?_eq_getElem h, Option.getD_some]
  · rw [List.getElem?_append_right (by omega), List.getElem?_replicate_of_lt (by omega),
      List.getD_eq_getElem?_getD, List.getElem?_eq_none (by omega), Option.getD_none]

/-- Settles O15: the transition of each colour model. -/
theorem trnsStoresTheTransparency : Obligations.TrnsStoresTheTransparency := by
  intro s raw b0 b1 b2 b3 b4 b5 hhdr
  refine ⟨fun hcm hpal hlen hsum => ?alphaList, fun hcm hsum => ?greyKey, fun hcm hsum => ?rgbKey⟩
  case alphaList =>
    have htr : transparencyRecord raw (advanceFrame 0x74524E53#32 raw.length s)
        = .ok { advanceFrame 0x74524E53#32 raw.length s with
            trnsKind := .alphaList, trnsSeen := true
            trnsAlpha := raw ++ List.replicate (s.pal.length - raw.length) 255#8 } := by
      refine (transparencyRecord_indexed raw (s := advanceFrame _ _ s) hcm).trans ?_
      exact (if_neg (Bool.ne_false_iff.mpr hpal)).trans (if_neg (Nat.not_lt.mpr hlen))
    refine ⟨_, exec_trns_completed hhdr hsum htr, ?_⟩
    rw [endOfStream_frame]
    refine ⟨?_, fun k hk => getElem?_padded hlen hk 255, ?_⟩
    · simp only [List.length_append, List.length_replicate]
      omega
    · rw [endOfStream, endOfStream]
      dsimp only
      split <;> rfl
  case greyKey =>
    refine exec_trns_completed (raw := [b0, b1]) hhdr hsum ?_
    rw [transparencyRecord_greyscale _ (s := advanceFrame _ _ s) hcm]
    rfl
  case rgbKey =>
    refine exec_trns_completed (raw := [b0, b1, b2, b3, b4, b5]) hhdr hsum ?_
    rw [transparencyRecord_rgb _ (s := advanceFrame _ _ s) hcm]
    rfl

/-- Settles O16: the failing checks of the transition, colour model by colour model. -/
theorem trnsErrors : Obligations.TrnsErrors := by
  intro s raw hhdr hsum
  refine ⟨fun hcm => ?forbidden, fun hcm hpal => ?early, fun hshape => ?shape⟩ <;>
    refine exec_trns_error hhdr hsum ?_
  case forbidden => exact transparencyRecord_forbidden raw hcm
  case early => exact (transparencyRecord_indexed raw (s := advanceFrame _ _ s) hcm).trans (if_pos hpal)
  case shape =>
    rcases hshape with ⟨hcm, hpal, hlen⟩ | ⟨hcm, hlen⟩ | ⟨hcm, hlen⟩
    · refine (transparencyRecord_indexed raw (s := advanceFrame _ _ s) hcm).trans ?_
      exact (if_neg (Bool.ne_false_iff.mpr hpal)).trans (if_pos hlen)
    · exact (transparencyRecord_greyscale raw (s := advanceFrame _ _ s) hcm).trans (if_pos hlen)
    · exact (transparencyRecord_rgb raw (s := advanceFrame _ _ s) hcm).trans (if_pos hlen)

/-! ## The ignorable chunks -/

/-- An ignorable record changes nothing beside the frame (42_assembler.md R166). -/
theorem chunkBody_ignorable {s : State} (hhdr : s.hdrSeen = true) {p : List Byte} (hsum : s.checksumPresent p.length)
    (tag : Word32) (it : IgnorableTag) :
    chunkBody tag (decodeIgnorable it) p s = .next (endOfStream (advanceFrame tag p.length s)) :=
  chunkBody_transition rfl rfl hhdr hsum rfl

/-- Settles O17: the eight tags share one decoder's body. -/
theorem ignorableChunksOnlyAdvance : Obligations.IgnorableChunksOnlyAdvance := by
  intro s p hhdr hsum it hit
  simp only [List.mem_cons, List.not_mem_nil, or_false] at hit
  rcases hit with rfl | rfl | rfl | rfl | rfl | rfl | rfl | rfl <;>
    exact (exec_chunk rfl s).trans (chunkBody_ignorable hhdr hsum _ _)

end Sys2Proof.Machine
end

section
/-! PROOFS. Fetching (40_framing.md R121 to R129; 44_defilter.md R202): what each fetch finds, on what it depends, where
it stops, and O5, O6. -/

namespace Sys2Proof.Machine

/-! ## The signature -/

section Signature
variable {s : State} {bs : List Byte}

theorem exec_sig (s : State) : exec .sig s = execSig s := rfl

theorem execSig_short (h : s.inLen.toNat < 8) : execSig s = .next (raise .signatureMismatch 0#32 0#64 s) := if_pos h

theorem execSig_unwritten (h : 8 ≤ s.inLen.toNat) (hr : s.inMem.readBytes 0 8 = none) :
    execSig s = .fault (.unwrittenByte .input) := by
  rw [execSig, if_neg (Nat.not_lt.mpr h), hr]

theorem execSig_match (h : 8 ≤ s.inLen.toNat) (hr : s.inMem.readBytes 0 8 = some signatureBytes) :
    execSig s = .next { s with feCursor := 8#64, phase := .chunks } := by
  rw [execSig, if_neg (Nat.not_lt.mpr h), hr]
  rfl

theorem execSig_mismatch (h : 8 ≤ s.inLen.toNat) (hr : s.inMem.readBytes 0 8 = some bs) (hne : bs ≠ signatureBytes) :
    execSig s = .next (raise .signatureMismatch 0#32 0#64 s) := by
  have htake : bs.take 8 ≠ signatureBytes := by
    rwa [List.take_of_length_le (Memory.readBytes_length hr).le]
  rw [execSig, if_neg (Nat.not_lt.mpr h), hr]
  simp only [decodeSig, if_neg htake]

end Signature

/-- Settles O6: a short buffer, the signature, anything else. -/
theorem signatureCheck : Obligations.SignatureCheck := by
  intro s bs
  rw [exec_sig]
  refine ⟨execSig_short, fun hlen hr => ⟨?_, execSig_mismatch hlen hr⟩⟩
  rintro rfl
  exact execSig_match hlen hr

/-! ## The frame of a chunk -/

section Frame
variable {s : State} {hdr payload : List Byte} {i : Instr}

theorem fetchChunk_noHeader (h : s.inLen.toNat < s.feCursor.toNat + 8) :
    fetchChunk s = .trap .lengthPastBufferEnd 0#32 s.feCursor := if_pos h

theorem fetchChunk_unwrittenHeader (h : s.feCursor.toNat + 8 ≤ s.inLen.toNat)
    (hr : s.inMem.readBytes s.feCursor.toNat 8 = none) : fetchChunk s = .unwritten .input := by
  rw [fetchChunk, if_neg (Nat.not_lt.mpr h), hr]

theorem fetchChunk_noPayload (h : s.feCursor.toNat + 8 ≤ s.inLen.toNat)
    (hr : s.inMem.readBytes s.feCursor.toNat 8 = some hdr)
    (hp : s.inLen.toNat < s.feCursor.toNat + 8 + (chunkLength hdr).toNat) :
    fetchChunk s = .trap .lengthPastBufferEnd (chunkTag hdr) s.feCursor := by
  rw [fetchChunk, if_neg (Nat.not_lt.mpr h), hr]
  exact if_pos hp

theorem fetchChunk_unwrittenPayload (h : s.feCursor.toNat + 8 + (chunkLength hdr).toNat ≤ s.inLen.toNat)
    (hr : s.inMem.readBytes s.feCursor.toNat 8 = some hdr)
    (hp : s.inMem.readBytes (s.feCursor.toNat + 8) (chunkLength hdr).toNat = none) :
    fetchChunk s = .unwritten .input := by
  rw [fetchChunk, if_neg (by omega), hr]
  dsimp only
  rw [if_neg (Nat.not_lt.mpr h), hp]

theorem chunkLength_append (hlen : hdr.length = 8) (bs : List Byte) : chunkLength (hdr ++ bs) = chunkLength hdr := by
  match hdr, hlen with
  | [_, _, _, _, _, _, _, _], _ => rfl

theorem chunkTag_append (hlen : hdr.length = 8) (bs : List Byte) : chunkTag (hdr ++ bs) = chunkTag hdr := by
  match hdr, hlen with
  | [_, _, _, _, _, _, _, _], _ => rfl

/-- A frame header and the payload of its length decode to what the tag selects (30_encoding.md R91 to R93). -/
theorem decodeChunk_header {ztxt : Word32} (hlen : hdr.length = 8) (hp : payload.length = (chunkLength hdr).toNat) :
    decodeChunk ztxt (hdr ++ payload) = .ok i ↔ instrOfTag ztxt (chunkTag hdr) payload = some i := by
  have hdrop : (hdr ++ payload).drop 8 = payload := List.drop_left' hlen
  rw [decodeChunk_ok, chunkLength_append hlen, chunkTag_append hlen, hdrop, List.take_of_length_le hp.le,
    List.length_append, hlen, hp]
  exact and_iff_right (Nat.le_refl _)

theorem fetchChunk_unknownTag (h : s.feCursor.toNat + 8 + (chunkLength hdr).toNat ≤ s.inLen.toNat)
    (hr : s.inMem.readBytes s.feCursor.toNat 8 = some hdr)
    (hp : s.inMem.readBytes (s.feCursor.toNat + 8) (chunkLength hdr).toNat = some payload)
    (hi : instrOfTag Config.ztxtTag (chunkTag hdr) payload = none) :
    fetchChunk s = .trap .unknownChunkTag (chunkTag hdr) s.feCursor := by
  rw [fetchChunk, if_neg (by omega), hr]
  dsimp only
  rw [if_neg (Nat.not_lt.mpr h), hp]
  dsimp only
  split
  · next i hok =>
    rw [decodeChunk_header (Memory.readBytes_length hr) (Memory.readBytes_length hp), hi] at hok
    cases hok
  · rfl

theorem fetchChunk_instr (h : s.feCursor.toNat + 8 + (chunkLength hdr).toNat ≤ s.inLen.toNat)
    (hr : s.inMem.readBytes s.feCursor.toNat 8 = some hdr)
    (hp : s.inMem.readBytes (s.feCursor.toNat + 8) (chunkLength hdr).toNat = some payload)
    (hi : instrOfTag Config.ztxtTag (chunkTag hdr) payload = some i) : fetchChunk s = .run i := by
  have hok := (decodeChunk_header (Memory.readBytes_length hr) (Memory.readBytes_length hp)).mpr hi
  rw [fetchChunk, if_neg (by omega), hr]
  dsimp only
  rw [if_neg (Nat.not_lt.mpr h), hp]
  simp only [hok]

end Frame

/-- Settles O5: the checks of the fetch, in its order. -/
theorem frameErrorsInOrder : Obligations.FrameErrorsInOrder := by
  intro s hp hh
  rw [step_eq, stepWith_chunks _ hp hh]
  refine ⟨fun h => by rw [fetchChunk_noHeader h]; rfl, fun hdr h hr => ⟨fun hlen => ?_, ?_⟩⟩
  · rw [fetchChunk_noPayload h hr hlen]
    rfl
  · intro payload hlen hread hfixed hztxt
    rw [fetchChunk_unknownTag hlen hr hread (instrOfTag_none.mpr ⟨hfixed, hztxt⟩)]
    rfl

/-- Bytes of IN at the cursor, inside `IN_LEN`, that decode to a chunk instruction are what the fetch finds
(40_framing.md R125). -/
theorem fetchChunk_of_decode {s : State} {bs : List Byte} {i : Instr}
    (hr : s.inMem.readBytes s.feCursor.toNat bs.length = some bs)
    (hlen : s.feCursor.toNat + bs.length ≤ s.inLen.toNat) (hdec : decodeChunk Config.ztxtTag bs = .ok i) :
    fetchChunk s = .run i := by
  obtain ⟨h8, hi⟩ := decodeChunk_ok.mp hdec
  obtain ⟨hdr, hhdr⟩ : ∃ hdr, bs.take 8 = hdr := ⟨_, rfl⟩
  have hl : hdr.length = 8 := by rw [← hhdr, List.length_take]; omega
  have hbs : hdr ++ bs.drop 8 = bs := by rw [← hhdr, List.take_append_drop]
  have hcl : chunkLength bs = chunkLength hdr := by rw [← hbs, chunkLength_append hl]
  have hct : chunkTag bs = chunkTag hdr := by rw [← hbs, chunkTag_append hl]
  rw [hcl] at h8 hi
  rw [hct] at hi
  obtain ⟨payload, hpay⟩ : ∃ payload, (bs.drop 8).take (chunkLength hdr).toNat = payload := ⟨_, rfl⟩
  have hpl : payload.length = (chunkLength hdr).toNat := by
    rw [← hpay, List.length_take, List.length_drop]
    omega
  have hsplit : bs = hdr ++ (payload ++ (bs.drop 8).drop (chunkLength hdr).toNat) := by
    rw [← hpay, List.take_append_drop, hbs]
  have hcount : bs.length = 8 + ((chunkLength hdr).toNat + (bs.length - 8 - (chunkLength hdr).toNat)) := by omega
  rw [hcount] at hr
  obtain ⟨hread, hrest⟩ := Memory.readBytes_split (as := hdr) hl (hr.trans (congrArg some hsplit))
  obtain ⟨hpread, -⟩ := Memory.readBytes_split hpl hrest
  rw [hpay] at hi
  exact fetchChunk_instr (by omega) hread hpread hi

/-- The fetch of a chunk reads its header and its payload alone (40_framing.md R122 to R125). -/
theorem fetchChunk_congr {s : State} {m : Memory} {hdr : List Byte}
    (hr : s.inMem.readBytes s.feCursor.toNat 8 = some hdr)
    (hm : ∀ a, s.feCursor.toNat ≤ a → a < s.feCursor.toNat + 8 + (chunkLength hdr).toNat → m.read a = s.inMem.read a) :
    fetchChunk { s with inMem := m } = fetchChunk s := by
  have h8 : m.readBytes s.feCursor.toNat 8 = some hdr := by
    rw [← hr]
    exact Memory.readBytes_congr fun k hk => hm _ (by omega) (by omega)
  have hp : m.readBytes (s.feCursor.toNat + 8) (chunkLength hdr).toNat
      = s.inMem.readBytes (s.feCursor.toNat + 8) (chunkLength hdr).toNat :=
    Memory.readBytes_congr fun k hk => hm _ (by omega) (by omega)
  simp only [fetchChunk, h8, hr, hp]

end Sys2Proof.Machine
end

section
/-! PROOFS. What a step does not read: an overlay of other values over a state passes through the operations that do not
look at what it covers. With it O4 (the host's moves), O20 (IN beyond the frame), O40 (the image description) and O56
(the dead latches). -/

namespace Sys2Proof.Machine

/-! ## Overlays -/

/-- Other values for parts of a state: the image description (width, depth, colour model, interlace; 10_state.md R24),
space IN, the host's pending moves, and zeros for the dead latches. -/
structure Overlay where
  description : Option (Word32 × Byte × ColorModel × Bool) := none
  inMem : Option Memory := none
  host : Option (List HostMove) := none
  noLatches : Bool := false

/-- The state with the overlay's values where it has some. -/
def State.over (o : Overlay) (s : State) : State :=
  { s with
    width := (o.description.map (·.1)).getD s.width
    bitDepth := (o.description.map (·.2.1)).getD s.bitDepth
    colorModel := (o.description.map (·.2.2.1)).getD s.colorModel
    interlace := (o.description.map (·.2.2.2)).getD s.interlace
    inMem := o.inMem.getD s.inMem
    host := o.host.getD s.host
    feLen := if o.noLatches then 0 else s.feLen
    feTag := if o.noLatches then 0 else s.feTag
    dfX := if o.noLatches then 0 else s.dfX
    dfA := if o.noLatches then 0 else s.dfA
    dfB := if o.noLatches then 0 else s.dfB
    dfC := if o.noLatches then 0 else s.dfC
    dfPr := if o.noLatches then 0 else s.dfPr
    dfP := if o.noLatches then 0 else s.dfP
    dfPa := if o.noLatches then 0 else s.dfPa
    dfPb := if o.noLatches then 0 else s.dfPb
    dfPc := if o.noLatches then 0 else s.dfPc }

theorem over_description (w : Word32) (d : Byte) (cm : ColorModel) (il : Bool) (s : State) :
    s.over { description := some (w, d, cm, il) }
      = { s with width := w, bitDepth := d, colorModel := cm, interlace := il } := rfl

theorem over_inMem (m : Memory) (s : State) : s.over { inMem := some m } = { s with inMem := m } := rfl

theorem over_host (ms : List HostMove) (s : State) : s.over { host := some ms } = { s with host := ms } := rfl

theorem over_noLatches (s : State) : s.over { noLatches := true } = s.forgetLatches := rfl

theorem getD_getD_self {α : Type} (x : Option α) (a : α) : x.getD (x.getD a) = x.getD a := by cases x <;> rfl

theorem ite_zero_zero {α : Type} [Zero α] (l : Bool) (a : α) :
    (if l then 0 else if l then 0 else a) = if l then 0 else a := by cases l <;> rfl

/-- Equal answers seen through `f` are one error, or next states equal through `f`. -/
theorem except_map_eq_map {f : State → State} {x y : Except Cause State} (h : x.map f = y.map f) :
    (∃ c, x = .error c ∧ y = .error c) ∨ ∃ t t', x = .ok t ∧ y = .ok t' ∧ f t = f t' := by
  cases x with
  | error c =>
    cases y with
    | error c' => exact .inl ⟨c, rfl, congrArg _ (Except.error.inj h).symm⟩
    | ok t' => cases h
  | ok t =>
    cases y with
    | error c' => cases h
    | ok t' => exact .inr ⟨t, t', rfl, rfl, Except.ok.inj h⟩

section Over
variable {o : Overlay} (s : State)

theorem over_over : (s.over o).over o = s.over o := by
  simp only [State.over, getD_getD_self, ite_zero_zero]

theorem mapNext_over_over (r : StepResult) :
    mapNext (State.over o) (mapNext (State.over o) r) = mapNext (State.over o) r := by
  cases r with
  | next t => exact congrArg Host.Outcome.next (over_over t)
  | fault => rfl
  | refused => rfl

/-! ## Operations that do not look under an overlay -/

theorem advanceFrame_over (tag : Word32) (len : Nat) :
    (advanceFrame tag len (s.over o)).over o = (advanceFrame tag len s).over o := by
  simp only [State.over, advanceFrame, getD_getD_self, ite_zero_zero]

theorem latch_over (ft : FilterType) (n : Neighbours) : (ft.latch n (s.over o)).over o = (ft.latch n s).over o := by
  cases ft with
  | paeth => simp only [State.over, FilterType.latch, latchPaeth, getD_getD_self, ite_zero_zero]
  | _ => exact over_over s

theorem writeBack_over (n : Neighbours) (pr : Byte) :
    (writeBack n pr (s.over o)).over o = (writeBack n pr s).over o := by
  unfold writeBack nextRow
  dsimp only
  rw [apply_ite (State.over o), apply_ite (State.over o)]
  simp only [State.over, State.rawAddr, getD_getD_self, ite_zero_zero]

theorem byteStep_over (ft : FilterType) (n : Neighbours) (pr : Byte) :
    (writeBack n pr (ft.latch n (s.over o))).over o = (writeBack n pr (ft.latch n s)).over o := by
  rw [← writeBack_over, latch_over, writeBack_over]

theorem rowStart_over (ft : FilterType) : rowStart ft (s.over o) = (rowStart ft s).over o := by
  unfold rowStart
  rw [show (s.over o).rowbytes = s.rowbytes from rfl]
  split <;> rfl

theorem finish_over : finish (s.over o) = (finish s).over o := by
  unfold finish
  rw [show (s.over o).dfFpos = s.dfFpos from rfl, show (s.over o).fLen = s.fLen from rfl,
    show (s.over o).excessReject = s.excessReject from rfl]
  split <;> rfl

theorem endOfStream_over : endOfStream (s.over o) = (endOfStream s).over o := by
  unfold endOfStream
  rw [show (s.over o).endSeen = s.endSeen from rfl]
  split <;> rfl

theorem inflateCall_over (inflate : List Byte → InflateResult) :
    inflateCall inflate (s.over o) = mapNext (State.over o) (inflateCall inflate s) := by
  unfold inflateCall
  rw [show (s.over o).zbuf = s.zbuf from rfl, show (s.over o).zlen = s.zlen from rfl]
  split
  · rfl
  · split
    · rfl
    · split <;> rfl

/-- Without another IN, the signature check passes. -/
theorem execSig_over (hin : o.inMem = none) : execSig (s.over o) = mapNext (State.over o) (execSig s) := by
  have hread : (s.over o).inMem.readBytes 0 8 = s.inMem.readBytes 0 8 := by
    simp only [State.over, hin, Option.getD_none]
  unfold execSig
  rw [hread, show (s.over o).inLen = s.inLen from rfl]
  split
  · rfl
  · split
    · rfl
    · split <;> rfl

section Description
variable (hd : o.description = none)
include hd

theorem over_colorModel : (s.over o).colorModel = s.colorModel := by
  simp only [State.over, hd, Option.map_none, Option.getD_none]

theorem over_bitDepth : (s.over o).bitDepth = s.bitDepth := by
  simp only [State.over, hd, Option.map_none, Option.getD_none]

theorem finalPass_over : finalPass (s.over o) = mapNext (State.over o) (finalPass s) := by
  have hcause : finalCause (s.over o) = finalCause s := by
    unfold finalCause
    rw [over_colorModel s hd, over_bitDepth s hd]
    rfl
  have hrow : deriveRow (s.over o) = (deriveRow s).over o := by
    obtain ⟨_, _, _, _⟩ := o
    obtain rfl := hd
    rfl
  unfold finalPass
  rw [hcause, hrow, show (s.over o).cmdLatch = s.cmdLatch from rfl]
  split
  · rfl
  · split <;> rfl

theorem transition_over (r : ChunkRecord) : transition r (s.over o) = (transition r s).map (State.over o) := by
  obtain ⟨_, _, _, _⟩ := o
  obtain rfl := hd
  cases r with
  | header => rfl
  | imageData => rfl
  | endOfImage => rfl
  | ignorable => rfl
  | palette entries =>
    show _ = (paletteRecord entries s).map _
    rw [paletteRecord, apply_ite (Except.map _), apply_ite (Except.map _)]
    rfl
  | background v =>
    show _ = (backgroundRecord v s).map _
    rw [backgroundRecord, apply_ite (Except.map _), apply_ite (Except.map _)]
    cases v <;> rfl
  | transparency raw =>
    show transparencyRecord raw _ = (transparencyRecord raw s).map _
    cases hcm : s.colorModel with
    | greyAlpha => rw [transparencyRecord_forbidden raw (.inl hcm)]; exact transparencyRecord_forbidden raw (.inl hcm)
    | rgbAlpha => rw [transparencyRecord_forbidden raw (.inr hcm)]; exact transparencyRecord_forbidden raw (.inr hcm)
    | greyscale =>
      rw [transparencyRecord_greyscale raw hcm, apply_ite (Except.map _)]
      exact transparencyRecord_greyscale raw hcm
    | rgb =>
      rw [transparencyRecord_rgb raw hcm, apply_ite (Except.map _)]
      exact transparencyRecord_rgb raw hcm
    | indexed =>
      rw [transparencyRecord_indexed raw hcm, apply_ite (Except.map _), apply_ite (Except.map _)]
      exact transparencyRecord_indexed raw hcm

theorem assemble_over (r : ChunkRecord) : assemble r (s.over o) = (assemble r s).map (State.over o) := by
  unfold assemble
  rw [transition_over s hd, show (s.over o).hdrSeen = s.hdrSeen from rfl]
  split
  · rfl
  · split <;> rfl

/-! ## Steps under an overlay -/

theorem chunkBody_over (tag : Word32) (dec : List Byte → Except Cause ChunkRecord) (p : List Byte) :
    mapNext (State.over o) (chunkBody tag dec p (s.over o)) = mapNext (State.over o) (chunkBody tag dec p s) := by
  have hraise (c : Cause) : (raise c tag (s.over o).feCursor (s.over o)).over o = (raise c tag s.feCursor s).over o :=
    over_over (raise c tag s.feCursor s)
  unfold chunkBody
  split
  · exact congrArg Host.Outcome.next (hraise _)
  · next r _ =>
    have hasm : (assemble r (advanceFrame tag p.length (s.over o))).map (State.over o)
        = (assemble r (advanceFrame tag p.length s)).map (State.over o) := by
      rw [← assemble_over _ hd, ← assemble_over _ hd, advanceFrame_over]
    rw [show (s.over o).inLen = s.inLen from rfl, show (s.over o).feCursor = s.feCursor from rfl]
    split
    · exact congrArg Host.Outcome.next (hraise _)
    · rcases except_map_eq_map hasm with ⟨c, h, h'⟩ | ⟨t, t', h, h', ht⟩ <;> rw [h, h']
      · exact congrArg Host.Outcome.next (hraise c)
      · refine congrArg Host.Outcome.next ?_
        rw [← endOfStream_over, ← endOfStream_over, ht]

end Description

/-- A scanline instruction reads nothing that an overlay covers (44_defilter.md R200, R202, R203, R210). -/
theorem exec_scanline_over (ft : FilterType) :
    mapNext (State.over o) (exec ft.instr (s.over o)) = mapNext (State.over o) (exec ft.instr s) := by
  rw [exec_scanline, exec_scanline]
  by_cases hcol : s.dfCol.toNat = 0
  · rw [scanline_start hcol, scanline_start (s := s.over o) hcol, rowStart_over]
    exact congrArg Host.Outcome.next (over_over _)
  · have hfetch : fetchNeighbours (s.over o) = fetchNeighbours s := rfl
    have hcol' : (s.over o).dfCol.toNat ≠ 0 := hcol
    cases hn : fetchNeighbours s with
    | error sp => simp only [scanline, hcol, hcol', if_false, hfetch, hn, mapNext]
    | ok n =>
      rw [scanline_byte hcol hn, scanline_byte hcol' (hfetch.trans hn)]
      exact congrArg Host.Outcome.next (byteStep_over s ft n _)

/-- What becomes of a fetch, if what becomes of its instruction passes under the overlay. -/
theorem afterFetch_over {f : Fetch}
    (hrun : ∀ i, f = .run i → mapNext (State.over o) (exec i (s.over o)) = mapNext (State.over o) (exec i s)) :
    mapNext (State.over o) (afterFetch f (s.over o)) = mapNext (State.over o) (afterFetch f s) := by
  cases f with
  | run i => exact hrun i rfl
  | trap c tag pos => exact congrArg Host.Outcome.next (over_over (raise c tag pos s))
  | unwritten => rfl
  | finished =>
    refine congrArg Host.Outcome.next ?_
    rw [finish_over, over_over]

theorem afterFetch_chunk_over (hd : o.description = none) :
    mapNext (State.over o) (afterFetch (fetchChunk s) (s.over o))
      = mapNext (State.over o) (afterFetch (fetchChunk s) s) :=
  afterFetch_over s fun i hi => by
    have ⟨_, _, hchunk, _⟩ := fetchChunk_run hi
    rw [exec_chunk hchunk, exec_chunk hchunk, chunkBody_over s hd]

theorem afterFetch_scanline_over :
    mapNext (State.over o) (afterFetch (fetchScanline s) (s.over o))
      = mapNext (State.over o) (afterFetch (fetchScanline s) s) :=
  afterFetch_over s fun i hi => by
    obtain ⟨ft, rfl⟩ := fetchScanline_run hi
    exact exec_scanline_over s ft

/-- A step of the block reads neither the host's moves nor the dead latches (10_state.md R23, R32; log 4). -/
theorem blockStep_over (hd : o.description = none) (hin : o.inMem = none) (inflate : List Byte → InflateResult) :
    mapNext (State.over o) (blockStep inflate (s.over o)) = mapNext (State.over o) (blockStep inflate s) := by
  have hphase : (s.over o).phase = s.phase := rfl
  unfold blockStep
  rw [hphase]
  cases hp : s.phase with
  | idle => exact congrArg Host.Outcome.next (over_over s)
  | done => exact congrArg Host.Outcome.next (over_over s)
  | error => exact congrArg Host.Outcome.next (over_over s)
  | sig =>
    dsimp only
    rw [exec_sig, exec_sig, execSig_over s hin, mapNext_over_over]
  | final =>
    dsimp only
    rw [finalPass_over s hd, mapNext_over_over]
  | inflate =>
    dsimp only
    rw [inflateCall_over, mapNext_over_over]
  | chunks =>
    have hfetch : fetchChunk (s.over o) = fetchChunk s := by
      simp only [fetchChunk, show (s.over o).inMem = s.inMem by simp only [State.over, hin, Option.getD_none]]
      rfl
    dsimp only
    rw [hfetch]
    exact afterFetch_chunk_over s hd
  | defilter => exact afterFetch_scanline_over s

end Over

/-- Where a step leaves what the overlay covers alone, it commutes with the overlay. -/
theorem eq_of_mapNext_over {o : Overlay} {r r' : StepResult} (h : mapNext (State.over o) r = mapNext (State.over o) r')
    (hfix : ∀ t, r = .next t → t.over o = t) : r = mapNext (State.over o) r' := by
  rw [← h]
  cases r with
  | next t => exact congrArg Host.Outcome.next (hfix t rfl).symm
  | fault => rfl
  | refused => rfl

/-! ## IN beyond the frame -/

/-- Settles O20: the fetch reads the frame alone, what becomes of it does not read IN, and no step of the block writes
IN. -/
theorem chunkStepReadsOnlyItsFrame : Obligations.ChunkStepReadsOnlyItsFrame := by
  intro s m hdr hp hh hr hm
  have hstep : step { s with inMem := m } = afterFetch (fetchChunk s) { s with inMem := m } := by
    rw [step_eq, stepWith_chunks (s := { s with inMem := m }) _ hp hh, fetchChunk_congr hr hm]
  rw [step_eq s, stepWith_chunks _ hp hh, hstep]
  refine eq_of_mapNext_over (o := { inMem := some m }) (afterFetch_chunk_over s rfl) fun t ht => ?_
  obtain ⟨hin, -⟩ := (blockMove_of_stepWith (s := { s with inMem := m }) hh (hstep.trans ht)).spaces
  rw [over_inMem, ← show t.inMem = m from hin]

/-! ## The image description -/

/-- A step of phase DEFILTER leaves the image description alone (44_defilter.md R200). -/
theorem BlockMove.description {s t : State} (h : BlockMove s t) (hp : s.phase = .defilter) :
    t.width = s.width ∧ t.bitDepth = s.bitDepth ∧ t.colorModel = s.colorModel ∧ t.interlace = s.interlace := by
  cases h with
  | wait => exact ⟨rfl, rfl, rfl, rfl⟩
  | failed => exact ⟨rfl, rfl, rfl, rfl⟩
  | finished => exact ⟨rfl, rfl, rfl, rfl⟩
  | row ft => rw [rowStart_frame]; exact ⟨rfl, rfl, rfl, rfl⟩
  | byte n => rw [byteStep_frame]; exact ⟨rfl, rfl, rfl, rfl⟩
  | signature h => exact nomatch hp.symm.trans h
  | chunk i r u h => exact nomatch hp.symm.trans h
  | parsed h => exact nomatch hp.symm.trans h
  | described h => exact nomatch hp.symm.trans h
  | inflated f h => exact nomatch hp.symm.trans h

theorem stepWith_defilter (inflate : List Byte → InflateResult) {s : State} (hp : s.phase = .defilter)
    (hh : s.host = []) : stepWith inflate s = afterFetch (fetchScanline s) s := by
  rw [stepWith_block inflate hh]
  simp only [blockStep, hp]

/-- Settles O40: the fetch does not look at the description, and what becomes of it passes under another one. -/
theorem defiltererIgnoresTheImageDescription : Obligations.DefiltererIgnoresTheImageDescription := by
  intro s w d cm il hp hh
  show step (s.over { description := some (w, d, cm, il) })
    = mapNext (State.over { description := some (w, d, cm, il) }) (step s)
  have hp' : (s.over { description := some (w, d, cm, il) }).phase = .defilter := hp
  have hh' : (s.over { description := some (w, d, cm, il) }).host = [] := hh
  have hstep := stepWith_defilter Config.inflate hp' hh'
  rw [step_eq s, stepWith_defilter _ hp hh, step_eq, hstep]
  refine eq_of_mapNext_over (afterFetch_scanline_over s) fun t ht => ?_
  obtain ⟨hw, hdepth, hcm, hil⟩ := (blockMove_of_stepWith hh' (hstep.trans ht)).description hp'
  rw [over_description, ← show t.width = w from hw, ← show t.bitDepth = d from hdepth,
    ← show t.colorModel = cm from hcm, ← show t.interlace = il from hil]

/-! ## The host's moves -/

/-- A step of the block leaves the host's moves alone and does not read them (log 4). -/
theorem blockStep_host (inflate : List Byte → InflateResult) (s : State) (ms : List HostMove) :
    blockStep inflate { s with host := ms } = mapNext (fun t => { t with host := ms }) (blockStep inflate s) := by
  refine eq_of_mapNext_over (o := { host := some ms }) (blockStep_over s rfl rfl inflate) fun t ht => ?_
  have hhost : t.host = ms := (blockStep_next ht).host_eq
  rw [over_host, ← hhost]

/-- Settles O4: the fetch finds the instruction that decodes, and the step executes it. -/
theorem stepRunsTheDecodedInstruction : Obligations.StepRunsTheDecodedInstruction := by
  refine ⟨fun s bs i hp hh hr hlen hdec => ?chunk, fun s b i hp hh hcol hrow hlen hr hdec => ?row,
    fun s hp hh hcol => stepWith_inRow _ hp hh hcol, fun s hp hh => stepWith_sig _ hp hh, fun inflate s ms hh => ?pass⟩
  case chunk =>
    rw [step_eq, stepWith_chunks _ hp hh, fetchChunk_of_decode hr hlen hdec, afterFetch_run]
  case row =>
    obtain ⟨hi, rest, hb⟩ := decodeScanline_ok (bs := [b]) (i := i) hdec
    obtain ⟨ft, rfl⟩ := scanline_instr hi
    obtain ⟨rfl, rfl⟩ := List.cons.inj hb
    rw [step_eq, stepWith_rowStart _ hp hh hcol, fetchRow_run hrow hlen (ft := ft) (by cases ft <;> exact hr),
      afterFetch_run]
  case pass =>
    rw [stepWith_host inflate hh, stepWith_block inflate (s := { s with host := [] }) rfl]
    exact blockStep_host inflate { s with host := [] } ms

/-! ## The dead latches -/

theorem startDefilter_forgetLatches (s : State) : startDefilter s.forgetLatches = (startDefilter s).forgetLatches := by
  unfold startDefilter
  dsimp only
  rw [apply_ite State.forgetLatches]
  rfl

theorem startParse_forgetLatches (cmd : Command) (s : State) :
    startParse cmd s.forgetLatches = mapNext State.forgetLatches (startParse cmd s) := by
  unfold startParse
  rw [apply_ite (mapNext _)]
  rfl

theorem writeCtrl_forgetLatches (v : Word32) (s : State) :
    writeCtrl v s.forgetLatches = mapNext State.forgetLatches (writeCtrl v s) := by
  unfold writeCtrl
  rw [show s.forgetLatches.phase = s.phase from rfl, startParse_forgetLatches, startParse_forgetLatches,
    startDefilter_forgetLatches]
  split
  · split <;> rfl
  · split
    · cases ctrlCommand v <;> rfl
    · rfl

theorem setReg_forgetLatches (r : Reg) (v : Word32) (s : State) :
    setReg r v s.forgetLatches = (setReg r v s).forgetLatches := by
  cases r <;> rfl

theorem writeOffset_forgetLatches (off : Nat) (v : Word32) (s : State) :
    writeOffset off v s.forgetLatches = mapNext State.forgetLatches (writeOffset off v s) := by
  unfold writeOffset
  split
  · next r _ =>
    unfold writeReg
    rw [writeCtrl_forgetLatches, setReg_forgetLatches, show s.forgetLatches.phase = s.phase from rfl]
    split
    · rfl
    · split <;> rfl
  · rfl

/-- A move of the host does not read the dead latches (10_state.md R23, R32). -/
theorem hostMove_forgetLatches (inflate : List Byte → InflateResult) (m : HostMove) (s : State) :
    mapNext State.forgetLatches (hostMove inflate m s.forgetLatches)
      = mapNext State.forgetLatches (hostMove inflate m s) := by
  cases m with
  | writeReg off v =>
    show mapNext _ (writeOffset off v s.forgetLatches) = mapNext _ (writeOffset off v s)
    rw [writeOffset_forgetLatches]
    exact mapNext_over_over (o := { noLatches := true }) _
  | writeIn off b =>
    show mapNext _ (hostWriteIn off b s.forgetLatches) = mapNext _ (hostWriteIn off b s)
    unfold hostWriteIn
    rw [show s.forgetLatches.phase = s.phase from rfl]
    split <;> rfl
  | writeFbuf off b =>
    show mapNext _ (hostWriteFbuf off b s.forgetLatches) = mapNext _ (hostWriteFbuf off b s)
    unfold hostWriteFbuf
    rw [show s.forgetLatches.phase = s.phase from rfl]
    split <;> rfl
  | hardReset => rfl
  | pass => exact blockStep_over (o := { noLatches := true }) s rfl rfl inflate

theorem stepWith_forgetLatches (inflate : List Byte → InflateResult) (s : State) :
    mapNext State.forgetLatches (stepWith inflate s.forgetLatches)
      = mapNext State.forgetLatches (stepWith inflate s) := by
  have hhost : s.forgetLatches.host = s.host := rfl
  unfold stepWith
  rw [hhost]
  split
  · exact blockStep_over (o := { noLatches := true }) s rfl rfl inflate
  · next m ms _ => exact hostMove_forgetLatches inflate m { s with host := ms }

/-- Settles O56: both steps are that of the state without its latches. -/
theorem deadLatchesInfluenceNothing : Obligations.DeadLatchesInfluenceNothing := by
  intro inflate s s' h
  rw [← stepWith_forgetLatches inflate s, ← stepWith_forgetLatches inflate s', h]

end Sys2Proof.Machine
end

section
/-! PROOFS. Errors (60_exceptions.md R230 to R240): what `raise` leaves, which steps fail, how phase ERROR is left; O41
and O42. -/

namespace Sys2Proof.Machine

/-! ## The error registers -/

/-- What the error registers show after a `raise`, by their names (10_state.md R34). -/
theorem readReg_raise (c : Cause) (tag : Word32) (pos : Word64) (s : State) :
    readReg .errKind (raise c tag pos s) = c.kind.code.setWidth 32
      ∧ readReg .errCause (raise c tag pos s) = c.code.setWidth 32 ∧ readReg .errTag (raise c tag pos s) = tag
      ∧ readReg .errPosHi (raise c tag pos s) ++ readReg .errPosLo (raise c tag pos s) = pos :=
  ⟨rfl, rfl, rfl, high32_append_low32 pos⟩

/-- The table of codes is that of the causes' own kind and code (60_exceptions.md R230, R231). -/
theorem mem_errorCodes (c : Cause) (kind code : Word32) :
    (c, kind, code) ∈ errorCodes ↔ kind = c.kind.code.setWidth 32 ∧ code = c.code.setWidth 32 := by
  cases c <;> simp [errorCodes, Cause.kind, Cause.code, ErrKind.code]

/-! ## Failing steps -/

/-- A move of a run that ends in ERROR is a `raise` on the state before it (60_exceptions.md R237, R238). -/
theorem BlockMove.failed_of_error {s t : State} (h : BlockMove s t) (hb : s.phase.busy = true) (he : t.phase = .error) :
    ∃ c tag pos, t = raise c tag pos s
      ∧ (c.kind = .signatureError ∨ c.kind = .formatError ∨ c.kind = .decompressionError)
      ∧ (s.phase ≠ .chunks → tag = 0)
      ∧ (s.phase = .sig ∨ s.phase = .inflate → pos = 0)
      ∧ (s.phase = .chunks ∨ s.phase = .final → pos = s.feCursor)
      ∧ (s.phase = .defilter → pos = s.dfRow.setWidth 64) := by
  cases h with
  | failed c tag pos busy kind tagZero posZero posCursor posRow =>
    exact ⟨c, tag, pos, rfl, kind, tagZero, posZero, posCursor, posRow⟩
  | wait hidle => exact absurd (hidle.symm.trans hb) Bool.noConfusion
  | signature => exact nomatch he
  | parsed => exact nomatch he
  | described => exact nomatch he
  | inflated => exact nomatch he
  | finished => exact nomatch he
  | row ft hp =>
    rw [rowStart_frame] at he
    exact nomatch hp.symm.trans he
  | byte n hp =>
    rw [byteStep_frame] at he
    exact nomatch hp.symm.trans he
  | chunk i r u hp hf hlen hrec hsum hasm =>
    rcases endOfStream_phase u with ⟨-, hu⟩ | ⟨-, hu⟩
    · exact nomatch hu.symm.trans he
    · exact nomatch ((hu.trans (assemble_phase hasm)).trans hp).symm.trans he

/-- Settles O41: the codes by the table, the failing steps by the moves of the block. -/
theorem failingStepWritesOnlyTheErrorRegisters : Obligations.FailingStepWritesOnlyTheErrorRegisters := by
  refine ⟨fun s c kind code tag pos hcode => ?codes, fun c => ⟨_, _, (mem_errorCodes c _ _).mpr ⟨rfl, rfl⟩⟩,
    fun s t hb hh h he => ?failing⟩
  case codes =>
    obtain ⟨rfl, rfl⟩ := (mem_errorCodes c kind code).mp hcode
    exact ⟨raise_phase c tag pos s, readReg_raise c tag pos s⟩
  case failing =>
    obtain ⟨c, tag, pos, ht, hkind, hrest⟩ := (blockMove_of_stepWith hh h).failed_of_error hb he
    refine ⟨c, tag, pos, ht, ?_, ?_, hrest⟩
    · rcases hkind with hk | hk | hk <;> rw [hk] <;> decide
    · rcases hkind with hk | hk | hk <;> rw [hk] <;> decide

/-! ## Leaving phase ERROR -/

/-- The block by itself does not leave ERROR (60_exceptions.md R240). -/
theorem BlockMove.error_stays {s t : State} (h : BlockMove s t) (hp : s.phase = .error) : t = s := by
  cases h with
  | wait => rfl
  | failed c tag pos busy => rw [hp] at busy; cases busy
  | signature h => exact nomatch hp.symm.trans h
  | chunk i r u h => exact nomatch hp.symm.trans h
  | parsed h => exact nomatch hp.symm.trans h
  | described h => exact nomatch hp.symm.trans h
  | inflated f h => exact nomatch hp.symm.trans h
  | row ft h => exact nomatch hp.symm.trans h
  | byte n h => exact nomatch hp.symm.trans h
  | finished h => exact nomatch hp.symm.trans h

/-- Settles O42: of the host's moves, CLEAR and hard reset alone leave ERROR. -/
theorem onlyClearOrResetLeavesError : Obligations.OnlyClearOrResetLeavesError := by
  intro inflate s t hp h hne
  rcases stepWith_next h with ⟨-, hmove⟩ | ⟨m, ms, hh, heff⟩
  · exact absurd (hmove.error_stays hp ▸ hp) hne
  · cases heff with
    | cleared v _ hbit => exact ⟨rfl, rfl, rfl, rfl, rfl, _, ms, hh, .inr ⟨v, rfl, hbit⟩⟩
    | reset => exact ⟨rfl, rfl, rfl, rfl, rfl, _, ms, hh, .inl rfl⟩
    | pass _ hmove => exact absurd (hmove.error_stays hp ▸ hp) hne
    | ignored => exact absurd hp hne
    | placedIn => exact absurd hp hne
    | placedFbuf => exact absurd hp hne
    | set r v hidle => exact nomatch hp.symm.trans hidle
    | parse v cmd hidle => exact nomatch hp.symm.trans hidle
    | defilter v hidle => exact nomatch hp.symm.trans hidle

end Sys2Proof.Machine
end

section
/-! PROOFS. The host's port (10_state.md R34, R35; 70_reset_and_hazards.md R260 to R264): what each move of the host
does, and O43 to O46, O48, O49, O50. -/

namespace Sys2Proof.Machine

/-! ## The step of each move -/

section Moves
variable (inflate : List Byte → InflateResult) {s : State} {ms : List HostMove} {v : Word32}

theorem stepWith_writeOffset {off : Nat} (hh : s.host = .writeReg off v :: ms) :
    stepWith inflate s = writeOffset off v { s with host := ms } := stepWith_host inflate hh

theorem stepWith_writeReg {r : Reg} (hh : s.host = .writeReg r.offset v :: ms) :
    stepWith inflate s = writeReg r v { s with host := ms } := by
  rw [stepWith_writeOffset inflate hh, writeOffset_offset]

theorem stepWith_writeCtrl (hh : s.host = .writeReg 0x00 v :: ms) :
    stepWith inflate s = writeCtrl v { s with host := ms } := by
  rw [stepWith_writeReg inflate (r := .ctrl) hh, writeReg_ctrl]

theorem stepWith_writeIn {off : Word64} {b : Byte} (hh : s.host = .writeIn off b :: ms) :
    stepWith inflate s = hostWriteIn off b { s with host := ms } := stepWith_host inflate hh

theorem stepWith_writeFbuf {off : Word64} {b : Byte} (hh : s.host = .writeFbuf off b :: ms) :
    stepWith inflate s = hostWriteFbuf off b { s with host := ms } := stepWith_host inflate hh

end Moves

/-! ## Commands and CLEAR -/

section Ctrl
variable {v : Word32} {s : State}

/-- CLEAR in DONE or ERROR (70_reset_and_hazards.md R261). -/
theorem writeCtrl_clear (hp : s.phase = .done ∨ s.phase = .error) (hc : v.getLsbD 2 = true) :
    writeCtrl v s = .next (clear s) := by
  rw [writeCtrl, if_pos (show ctrlClear v = true from hc), if_pos hp]

/-- CLEAR in any other phase (10_state.md R35 b). -/
theorem writeCtrl_clear_ignored (hp : ¬(s.phase = .done ∨ s.phase = .error)) (hc : v.getLsbD 2 = true) :
    writeCtrl v s = .next s := by
  rw [writeCtrl, if_pos (show ctrlClear v = true from hc), if_neg hp]

/-- A command outside IDLE (10_state.md R35 a). -/
theorem writeCtrl_notIdle (hp : s.phase ≠ .idle) (hc : v.getLsbD 2 = false) : writeCtrl v s = .next s := by
  rw [writeCtrl, if_neg (show ¬ctrlClear v = true from Bool.eq_false_iff.mp hc), if_neg hp]

/-- The commands DECODE and PARSE (40_framing.md R120). -/
theorem writeCtrl_parse {cmd : Command} (hp : s.phase = .idle) (hc : v.getLsbD 2 = false)
    (hv : (v.extractLsb' 0 2, cmd) ∈ [(1#2, Command.decode), (3#2, Command.parse)]) :
    writeCtrl v s = startParse cmd s := by
  rw [writeCtrl, if_neg (show ¬ctrlClear v = true from Bool.eq_false_iff.mp hc), if_pos hp]
  simp only [List.mem_cons, Prod.mk.injEq, List.not_mem_nil, or_false] at hv
  rcases hv with ⟨hv, rfl⟩ | ⟨hv, rfl⟩ <;> simp [ctrlCommand, hv]

/-- The command DEFILTER (44_defilter.md R201). -/
theorem writeCtrl_defilter (hp : s.phase = .idle) (hc : v.getLsbD 2 = false) (hv : v.extractLsb' 0 2 = 2) :
    writeCtrl v s = .next (startDefilter s) := by
  rw [writeCtrl, if_neg (show ¬ctrlClear v = true from Bool.eq_false_iff.mp hc), if_pos hp]
  simp [ctrlCommand, hv]

/-- No command (10_state.md R34). -/
theorem writeCtrl_noCommand (hp : s.phase = .idle) (hc : v.getLsbD 2 = false) (hv : v.extractLsb' 0 2 = 0) :
    writeCtrl v s = .next s := by
  rw [writeCtrl, if_neg (show ¬ctrlClear v = true from Bool.eq_false_iff.mp hc), if_pos hp]
  simp [ctrlCommand, hv]

end Ctrl

/-- Settles O43: the write is of CTRL, and its CLEAR is honoured. -/
theorem clearReturnsToIdle : Obligations.ClearReturnsToIdle := by
  intro s v ms hp hh hc
  rw [step_eq, stepWith_writeCtrl _ hh, writeCtrl_clear (s := { s with host := ms }) hp hc]
  rfl

/-- Outside IDLE a register write is ignored but for CLEAR in DONE or ERROR (10_state.md R35 a, b). -/
theorem writeOffset_notIdle {off : Nat} {v : Word32} {s : State} (hp : s.phase ≠ .idle)
    (h : s.phase.busy = true ∨ off ≠ 0 ∨ v.getLsbD 2 = false) : writeOffset off v s = .next s := by
  unfold writeOffset
  split
  · next r hr =>
    rw [regAt_some hr] at h
    by_cases hctrl : r = .ctrl
    · subst hctrl
      rw [writeReg_ctrl]
      cases hc : v.getLsbD 2 with
      | false => exact writeCtrl_notIdle hp hc
      | true =>
        refine writeCtrl_clear_ignored ?_ hc
        rcases h with h | h | h
        · rintro (hd | he)
          · rw [hd] at h
            cases h
          · rw [he] at h
            cases h
        · exact absurd rfl h
        · exact nomatch hc.symm.trans h
    · rw [writeReg, if_neg hctrl, if_neg hp]
  · rfl

/-- Settles O44: a write outside IDLE, with the move taken. -/
theorem registerWritesOutsideIdleAreIgnored : Obligations.RegisterWritesOutsideIdleAreIgnored := by
  intro s off v ms hp hh h
  rw [step_eq, stepWith_writeOffset _ hh]
  exact writeOffset_notIdle (s := { s with host := ms }) hp h

/-- Settles O45: an input short enough is accepted, and the run initialised. -/
theorem decodeAndParseStartARun : Obligations.DecodeAndParseStartARun := by
  intro s ms v cmd hp hlen hv hc hh
  rw [step_eq, stepWith_writeCtrl _ hh, writeCtrl_parse (s := { s with host := ms }) hp hc hv]
  exact if_neg (Nat.not_le.mpr hlen)

/-- Settles O46: the check of the parameters decides. -/
theorem defilterCommandStartsARun : Obligations.DefilterCommandStartsARun := by
  intro s ms v hp hv hc hh legal init
  have hlegal : badDefilterParameter { s with host := ms } = false ↔ legal := badDefilterParameter_false
  rw [step_eq, stepWith_writeCtrl _ hh, writeCtrl_defilter (s := { s with host := ms }) hp hc hv]
  rcases startDefilter_cases { s with host := ms } with ⟨hbad, h⟩ | ⟨hgood, h⟩ <;> rw [h]
  · exact ⟨fun hl => (nomatch hbad.symm.trans (hlegal.mpr hl)), fun _ => rfl⟩
  · exact ⟨fun _ => rfl, fun hl => absurd (hlegal.mp hgood) hl⟩

/-! ## Registers written and read -/

@[simp] theorem low32_setLow32 (old : Word64) (v : Word32) : low32 (setLow32 old v) = v :=
  BitVec.extractLsb'_append_eq_right

@[simp] theorem high32_setLow32 (old : Word64) (v : Word32) : high32 (setLow32 old v) = high32 old :=
  BitVec.extractLsb'_append_eq_left

@[simp] theorem low32_setHigh32 (old : Word64) (v : Word32) : low32 (setHigh32 old v) = low32 old :=
  BitVec.extractLsb'_append_eq_right

@[simp] theorem high32_setHigh32 (old : Word64) (v : Word32) : high32 (setHigh32 old v) = v :=
  BitVec.extractLsb'_append_eq_left

/-- A write to a register that is not RW changes nothing (10_state.md R34; log 11). -/
theorem setReg_readOnly {r : Reg} (h : rwMask r = none) (v : Word32) (s : State) : setReg r v s = s := by
  cases r <;> cases h <;> rfl

theorem and_wholeWord (v : Word32) : v &&& 0xFFFFFFFF#32 = v := BitVec.and_allOnes

theorem bit_setWidth (v : Word32) : (bit (v.getLsbD 0)).setWidth 32 = v &&& 0x00000001#32 := by
  refine BitVec.eq_of_toNat_eq ?_
  rcases Nat.mod_two_eq_zero_or_one v.toNat with h | h <;> simp [bit, BitVec.getLsbD, h]

theorem extract_setWidth (v : Word32) : (v.extractLsb' 0 4).setWidth 32 = v &&& 0x0000000F#32 := by
  refine BitVec.eq_of_toNat_eq ?_
  simp only [BitVec.toNat_setWidth, BitVec.extractLsb'_toNat, BitVec.toNat_and, Nat.shiftRight_zero]
  rw [show (0x0000000F#32).toNat = 2 ^ 4 - 1 from rfl, Nat.and_two_pow_sub_one_eq_mod]
  omega

/-- A register written reads back in the bits that exist (10_state.md R34). -/
theorem readReg_setReg_same {r : Reg} {m : Word32} (h : rwMask r = some m) (v : Word32) (s : State) :
    readReg r (setReg r v s) = v &&& m := by
  cases r <;> cases h
  case cfg => exact bit_setWidth v
  case bpp => exact extract_setWidth v
  all_goals simp [readReg, setReg, and_wholeWord]

/-- A register not written reads as before (10_state.md R34). -/
theorem readReg_setReg_other {r r' : Reg} (hne : r' ≠ r) (v : Word32) (s : State) :
    readReg r' (setReg r v s) = readReg r' s := by
  cases hm : rwMask r with
  | none => rw [setReg_readOnly hm]
  | some m => cases r <;> cases hm <;> cases r' <;> simp [readReg, setReg] at hne ⊢ <;> rfl

/-- What the host may not write is not RW (10_state.md R34). -/
theorem readOnly_of_not_writable {r : Reg} (h : r.offset ∉ writableOffsets) : r ≠ .ctrl ∧ rwMask r = none := by
  revert h
  cases r <;> decide

theorem rwMask_ne_ctrl {r : Reg} {m : Word32} (h : rwMask r = some m) : r ≠ .ctrl := by
  rintro rfl
  cases h

/-- A write in IDLE to what the host may not write changes nothing (log 11). -/
theorem writeOffset_readOnly {off : Nat} (v : Word32) {s : State} (hp : s.phase = .idle) (h : off ∉ writableOffsets) :
    writeOffset off v s = .next s := by
  unfold writeOffset
  split
  · next r hr =>
    rw [regAt_some hr] at h
    obtain ⟨hctrl, hmask⟩ := readOnly_of_not_writable h
    rw [writeReg_idle hctrl v hp, setReg_readOnly hmask]
  · rfl

/-- Settles O48: the write to an RW register is `setReg`; any other write but a command is ignored. -/
theorem writtenRegisterReadsBack : Obligations.WrittenRegisterReadsBack := by
  refine ⟨fun s r m v ms hp hm hh => ?written, fun s off v ms hp hh h => ?ignored⟩
  case written =>
    have hset := writeReg_idle (rwMask_ne_ctrl hm) v (s := { s with host := ms }) hp
    refine ⟨setReg r v { s with host := ms }, ?_, by rw [setReg_frame], ?_, fun r' hr' => ?_, setReg_frame r v _⟩
    · rw [step_eq, stepWith_writeReg _ hh, hset]
    · rw [readOffset_offset, readReg_setReg_same hm]
    · rw [readOffset_offset, readOffset_offset, readReg_setReg_other hr']
      rfl
  case ignored =>
    rw [step_eq]
    rcases h with hoff | ⟨rfl, hv⟩
    · rw [stepWith_writeOffset _ hh]
      exact writeOffset_readOnly v (s := { s with host := ms }) hp hoff
    · rw [stepWith_writeCtrl _ hh]
      cases hc : v.getLsbD 2 with
      | true => exact writeCtrl_clear_ignored (s := { s with host := ms }) (by simp [hp]) hc
      | false =>
        refine writeCtrl_noCommand (s := { s with host := ms }) hp hc ?_
        exact hv.resolve_left (Bool.eq_false_iff.mp hc)

/-! ## Hard reset -/

/-- No register shows the host's moves (10_state.md R34). -/
@[simp] theorem readReg_host (r : Reg) (s : State) (ms : List HostMove) :
    readReg r { s with host := ms } = readReg r s := by
  cases r <;> rfl

/-- Every register of the map is 0 after hard reset (10_state.md R39). -/
theorem readReg_reset (r : Reg) : readReg r State.reset = 0 := by
  cases r <;> decide

/-- Settles O49: after hard reset every register is 0, and where none is the read is 0. -/
theorem hardResetFromAnyState : Obligations.HardResetFromAnyState := by
  intro s ms hh
  refine ⟨by rw [step_eq, stepWith_host _ hh]; rfl, fun off => ?_⟩
  unfold readOffset
  split
  · next r _ => exact (readReg_host r State.reset ms).trans (readReg_reset r)
  · rfl

/-! ## Placed bytes -/

/-- Settles O50: the byte is written, or the move refused. -/
theorem hostPlacesBytesBetweenRuns : Obligations.HostPlacesBytesBetweenRuns := by
  intro s off b ms
  constructor
  · intro hh
    rw [step_eq, stepWith_writeIn _ hh]
    exact ⟨fun hb => ⟨_, if_neg (Bool.eq_false_iff.mp hb), Memory.read_write_same _ _ _,
      fun a ha => Memory.read_write_other _ _ ha.symm, rfl⟩, fun hb => if_pos hb⟩
  · intro hh
    rw [step_eq, stepWith_writeFbuf _ hh]
    exact ⟨fun hb => ⟨_, if_neg (Bool.eq_false_iff.mp hb), Memory.read_write_same _ _ _,
      fun a ha => Memory.read_write_other _ _ ha.symm, rfl⟩, fun hb => if_pos hb⟩

end Sys2Proof.Machine
end

section
/-! PROOFS. What the register map shows (10_state.md R34): the fields of each packed word, the words of each quantity,
the side tables, and O47. -/

namespace Sys2Proof.Machine

/-! ## The packed words -/

@[simp] theorem getLsbD_bit_zero (b : Bool) : (bit b).getLsbD 0 = b := by cases b <;> rfl

/-- `STATUS`, field by field (10_state.md R34). -/
theorem statusWord_fields (s : State) :
    (statusWord s).extractLsb' 0 3 = s.phase.code ∧ (statusWord s).getLsbD 3 = s.phase.busy
      ∧ (statusWord s).getLsbD 4 = decide (s.phase = .done) ∧ (statusWord s).getLsbD 5 = decide (s.phase = .error)
      ∧ (statusWord s).getLsbD 6 = s.hdrSeen ∧ (statusWord s).getLsbD 7 = s.palSeen
      ∧ (statusWord s).getLsbD 8 = s.bkgdSeen ∧ (statusWord s).getLsbD 9 = s.dataSeen
      ∧ (statusWord s).getLsbD 10 = s.trnsSeen ∧ (statusWord s).getLsbD 11 = s.endSeen
      ∧ (statusWord s).extractLsb' 12 2 = s.cmdLatch.code ∧ (statusWord s).extractLsb' 14 18 = 0 := by
  unfold statusWord
  simp (disch := decide) only [BitVec.extractLsb'_append_eq_of_add_le, BitVec.extractLsb'_append_eq_of_le,
    BitVec.getLsbD_append, Nat.reduceLT, Nat.reduceSub, if_true, if_false, BitVec.extractLsb'_eq_self,
    getLsbD_bit_zero, true_and]
  rfl

/-- `FMT`, field by field (10_state.md R34). -/
theorem fmtWord_fields (s : State) :
    (fmtWord s).extractLsb' 0 8 = s.bitDepth ∧ (fmtWord s).extractLsb' 8 3 = s.colorModel.code
      ∧ (fmtWord s).getLsbD 11 = s.interlace ∧ (fmtWord s).extractLsb' 12 20 = 0 := by
  unfold fmtWord
  simp (disch := decide) only [BitVec.extractLsb'_append_eq_of_add_le, BitVec.extractLsb'_append_eq_of_le,
    BitVec.getLsbD_append, Nat.reduceLT, Nat.reduceSub, if_true, if_false, BitVec.extractLsb'_eq_self,
    getLsbD_bit_zero, true_and]
  rfl

/-- `BKGD0`, field by field (10_state.md R34; log 12). -/
theorem bkgd0Word_fields (s : State) :
    (bkgd0Word s).extractLsb' 0 2 = s.bkgdKind.code ∧ (bkgd0Word s).extractLsb' 2 6 = 0
      ∧ (bkgd0Word s).extractLsb' 8 8 = s.bkgdIndex
      ∧ (bkgd0Word s).extractLsb' 16 16 = if s.bkgdKind = .rgb then s.bkgdR else s.bkgdGrey := by
  unfold bkgd0Word
  simp (disch := decide) only [BitVec.extractLsb'_append_eq_of_add_le, BitVec.extractLsb'_append_eq_of_le,
    Nat.reduceSub, BitVec.extractLsb'_eq_self, true_and, and_true]
  rfl

/-- `TRNS0`, field by field (10_state.md R34; log 12). -/
theorem trns0Word_fields (s : State) :
    (trns0Word s).extractLsb' 0 2 = s.trnsKind.code ∧ (trns0Word s).extractLsb' 2 14 = 0
      ∧ (trns0Word s).extractLsb' 16 16 = if s.trnsKind = .rgbKey then s.trnsR else s.trnsGrey := by
  unfold trns0Word
  simp (disch := decide) only [BitVec.extractLsb'_append_eq_of_add_le, BitVec.extractLsb'_append_eq_of_le,
    Nat.reduceSub, BitVec.extractLsb'_eq_self, true_and, and_true]
  rfl

/-- A palette entry, colour by colour (10_state.md R34). -/
theorem palEntry_fields (e : PalEntry) :
    (e.r ++ e.g ++ e.b).extractLsb' 16 8 = e.r ∧ (e.r ++ e.g ++ e.b).extractLsb' 8 8 = e.g
      ∧ (e.r ++ e.g ++ e.b).extractLsb' 0 8 = e.b := by
  simp (disch := decide) only [BitVec.extractLsb'_append_eq_of_add_le, BitVec.extractLsb'_append_eq_of_le,
    Nat.reduceSub, BitVec.extractLsb'_eq_self, and_self]

/-! ## The numbers of the codes -/

theorem phase_code_mem (p : Phase) : (p, p.code) ∈ [(Phase.idle, 0#3), (Phase.sig, 1#3), (Phase.chunks, 2#3),
    (Phase.final, 3#3), (Phase.inflate, 4#3), (Phase.defilter, 5#3), (Phase.done, 6#3), (Phase.error, 7#3)] := by
  cases p <;> decide

/-- `BUSY` is `PHASE` in 1 to 5 (10_state.md R34). -/
theorem phase_busy_iff (p : Phase) : p.busy = true ↔ 1 ≤ p.code.toNat ∧ p.code.toNat ≤ 5 := by
  cases p <;> decide

theorem command_code_mem (c : Command) : (c, c.code) ∈ [(Command.noCommand, 0#2), (Command.decode, 1#2),
    (Command.defilter, 2#2), (Command.parse, 3#2)] := by
  cases c <;> decide

theorem colorModel_code_mem (cm : ColorModel) : (cm, cm.code) ∈ [(ColorModel.greyscale, 0#3), (ColorModel.rgb, 2#3),
    (ColorModel.indexed, 3#3), (ColorModel.greyAlpha, 4#3), (ColorModel.rgbAlpha, 6#3)] := by
  cases cm <;> decide

theorem bkgdKind_code_mem (k : BkgdKind) : (k, k.code) ∈ [(BkgdKind.absent, 0#2), (BkgdKind.paletteIndex, 1#2),
    (BkgdKind.grey, 2#2), (BkgdKind.rgb, 3#2)] := by
  cases k <;> decide

theorem trnsKind_code_mem (k : TrnsKind) : (k, k.code) ∈ [(TrnsKind.absent, 0#2), (TrnsKind.alphaList, 1#2),
    (TrnsKind.greyKey, 2#2), (TrnsKind.rgbKey, 3#2)] := by
  cases k <;> decide

theorem errKind_code_mem (k : ErrKind) : (k, k.code.setWidth 32) ∈ [(ErrKind.noError, 0#32),
    (ErrKind.signatureError, 1#32), (ErrKind.formatError, 2#32), (ErrKind.decompressionError, 3#32),
    (ErrKind.ioError, 4#32)] := by
  cases k <;> decide

/-! ## The map -/

/-- In a state of the invariant an alpha list has `PAL_LEN` entries (10_state.md R27). -/
theorem readTrnsAlpha_isSome {s : State} (h : s.Inv) (hk : s.trnsKind = .alphaList) (i : Nat) :
    (readTrnsAlpha i s).isSome = true ↔ i < s.pal.length := by
  obtain ⟨hlen, -⟩ := h.trnsAlphaLen hk
  rw [readTrnsAlpha, ← hlen, isSome_getElem?]

/-- Settles O47: the packed words field by field, the other registers word by word. -/
theorem packedWordsShowTheirFields : Obligations.PackedWordsShowTheirFields := by
  intro s
  obtain ⟨hphase, hbusy, hdone, herror, hhdr, hpal, hbkgdSeen, hdata, htrnsSeen, hend, hcmd, hzero⟩ := statusWord_fields s
  obtain ⟨hdepth, hmodel, hfmt⟩ := fmtWord_fields s
  obtain ⟨hbkgd, hbkgdZero, hindex, hbkgdHigh⟩ := bkgd0Word_fields s
  obtain ⟨htrns, htrnsZero, htrnsHigh⟩ := trns0Word_fields s
  refine ⟨⟨hphase, hbusy, hdone, herror, hhdr, hpal, hbkgdSeen, hdata, htrnsSeen, hend, hcmd, hzero⟩,
    ⟨hdepth, hmodel, hfmt⟩,
    ⟨hbkgd, hbkgdZero, hindex, fun h => hbkgdHigh.trans (if_neg h), fun h => hbkgdHigh.trans (if_pos h)⟩,
    ⟨BitVec.extractLsb'_append_eq_right, BitVec.extractLsb'_append_eq_left⟩,
    ⟨htrns, htrnsZero, fun h => htrnsHigh.trans (if_neg h), fun h => htrnsHigh.trans (if_pos h)⟩,
    ⟨BitVec.extractLsb'_append_eq_right, BitVec.extractLsb'_append_eq_left⟩,
    fun i e he => ⟨_, by rw [readPal, he]; rfl, palEntry_fields e⟩, fun i a ha => ha,
    fun hinv hk => readTrnsAlpha_isSome hinv hk, ?phase, ?busy, ?cmd, ?model, ?bkgd, ?trns, errKind_code_mem s.errKind,
    rfl, ?errKind, ?errCause, rfl, high32_append_low32 _, ?cfg, high32_append_low32 _, high32_append_low32 _, rfl, rfl,
    ?bpp, high32_append_low32 _, high32_append_low32 _, rfl, fun h => ?palLen, high32_append_low32 _,
    high32_append_low32 _⟩
  case phase =>
    show (s.phase, (statusWord s).extractLsb' 0 3) ∈ _
    rw [hphase]
    exact phase_code_mem s.phase
  case busy =>
    show (statusWord s).getLsbD 3 = true ↔ 1 ≤ ((statusWord s).extractLsb' 0 3).toNat
      ∧ ((statusWord s).extractLsb' 0 3).toNat ≤ 5
    rw [hbusy, hphase]
    exact phase_busy_iff s.phase
  case cmd =>
    show (s.cmdLatch, (statusWord s).extractLsb' 12 2) ∈ _
    rw [hcmd]
    exact command_code_mem s.cmdLatch
  case model =>
    show (s.colorModel, (fmtWord s).extractLsb' 8 3) ∈ _
    rw [hmodel]
    exact colorModel_code_mem s.colorModel
  case bkgd =>
    show (s.bkgdKind, (bkgd0Word s).extractLsb' 0 2) ∈ _
    rw [hbkgd]
    exact bkgdKind_code_mem s.bkgdKind
  case trns =>
    show (s.trnsKind, (trns0Word s).extractLsb' 0 2) ∈ _
    rw [htrns]
    exact trnsKind_code_mem s.trnsKind
  case errKind => exact BitVec.toNat_setWidth_of_le (by decide)
  case errCause => exact BitVec.toNat_setWidth_of_le (by decide)
  case cfg => exact (BitVec.toNat_setWidth_of_le (by decide)).trans (BitVec.toNat_ofBool _)
  case bpp => exact BitVec.toNat_setWidth_of_le (by decide)
  case palLen => exact (BitVec.toNat_ofNat ..).trans (Nat.mod_eq_of_lt h)

end Sys2Proof.Machine
end

section
/-! PROOFS. Where the model stops (93_implementation_defined.md U11 to U13; logs 1, 7, 8), and O51. -/

namespace Sys2Proof.Machine

/-- A filter-type byte that nothing has written (log 1). -/
theorem fetchRow_unwritten {s : State} (hr : s.dfRow ≠ s.height)
    (hl : s.dfFpos.toNat + 1 + s.rowbytes.toNat ≤ s.fLen.toNat) (hb : s.fbuf.read s.dfFpos.toNat = none) :
    fetchRow s = .unwritten .fbuf := by
  rw [fetchRow, if_neg hr, if_neg (Nat.not_lt.mpr hl), hb]

/-- A byte step with an operand that nothing has written (log 1). -/
theorem exec_scanline_unwritten (ft : FilterType) {s : State} {sp : Space} (hcol : s.dfCol ≠ 0)
    (hn : fetchNeighbours s = .error sp) : exec ft.instr s = .fault (.unwrittenByte sp) := by
  have hcol' : s.dfCol.toNat ≠ 0 := fun h => hcol (BitVec.eq_of_toNat_eq h)
  rw [exec_scanline, scanline, if_neg hcol', hn]

theorem inflateCall_unwritten (inflate : List Byte → InflateResult) {s : State}
    (hz : s.zbuf.readBytes 0 s.zlen.toNat = none) : inflateCall inflate s = .fault (.unwrittenByte .zbuf) := by
  rw [inflateCall, hz]

theorem inflateCall_tooLong {inflate : List Byte → InflateResult} {s : State} {z f : List Byte}
    (hz : s.zbuf.readBytes 0 s.zlen.toNat = some z) (hi : inflate z = .ok f) (hf : Config.lengthBound ≤ f.length) :
    inflateCall inflate s = .refused .inflateTooLong := by
  simp only [inflateCall, hz, hi, if_pos hf]

/-- A legal image without a DECODE or PARSE command (log 8). -/
theorem finalPass_noTransition {s : State} (hlegal : s.legalImage) (hdecode : s.cmdLatch ≠ .decode)
    (hparse : s.cmdLatch ≠ .parse) : finalPass s = .fault .noTransition := by
  rcases finalPass_cases s with ⟨c, hc, -⟩ | ⟨-, ⟨h, -⟩ | ⟨h, -⟩ | ⟨-, -, h⟩⟩
  · exact nomatch hc.symm.trans (finalCause_none.mpr hlegal)
  · exact absurd h hparse
  · exact absurd h hdecode
  · exact h

/-- DECODE or PARSE with an input too long (93_implementation_defined.md U11; log 7). -/
theorem startParse_tooLong (cmd : Command) {s : State} (h : Config.lengthBound ≤ s.inLen.toNat) :
    startParse cmd s = .refused .inputTooLong := if_pos h

/-- Settles O51: each stop of the operation its phase runs. -/
theorem stopsByName : Obligations.StopsByName := by
  intro inflate s
  refine ⟨execSig_unwritten, fun hp hh hlen hr => ?header, fun hdr hp hh _ hr hlen hpay => ?payload,
    fun hp hh hcol hrow hlen hb => ?row, fun ft sp => exec_scanline_unwritten ft, fun hp hh hz => ?call,
    fun hp hh hlegal hdecode hparse => ?final, fun v ms hp hlen hv hc hh => ?command,
    fun z f hp hh hz hi hf => ?result⟩
  case header => rw [stepWith_chunks _ hp hh, fetchChunk_unwrittenHeader hlen hr]; rfl
  case payload => rw [stepWith_chunks _ hp hh, fetchChunk_unwrittenPayload hlen hr hpay]; rfl
  case row => rw [stepWith_rowStart _ hp hh hcol, fetchRow_unwritten hrow hlen hb]; rfl
  case call => rw [stepWith_inflate _ hp hh, inflateCall_unwritten inflate hz]
  case final => rw [stepWith_final _ hp hh, finalPass_noTransition hlegal hdecode hparse]
  case result => rw [stepWith_inflate _ hp hh, inflateCall_tooLong hz hi hf]
  case command =>
    obtain ⟨cmd, hcmd⟩ : ∃ cmd, (v.extractLsb' 0 2, cmd) ∈ [(1#2, Command.decode), (3#2, Command.parse)] := by
      rcases hv with hv | hv
      · exact ⟨.decode, by simp [hv]⟩
      · exact ⟨.parse, by simp [hv]⟩
    rw [stepWith_writeCtrl _ hh, writeCtrl_parse (s := { s with host := ms }) hp hc hcmd]
    exact startParse_tooLong cmd (s := { s with host := ms }) hlen

end Sys2Proof.Machine
end

section
/-! PROOFS. The result of a run (10_state.md R37; 70_reset_and_hazards.md R261), and O52. -/

namespace Sys2Proof.Machine

/-! ## What a finished run holds -/

/-- A space that covers `n` bytes gives them, each as it reads. -/
theorem Memory.readBytes_of_covers {m : Memory} {n : Nat} (h : m.covers n) :
    ∃ bs, m.readBytes 0 n = some bs ∧ bs.length = n ∧ ∀ k, k < bs.length → m.read k = bs[k]? := by
  obtain ⟨bs, hbs⟩ := Memory.readBytes_isSome (x := 0) (n := n) fun k hk => h (0 + k) (by omega)
  obtain ⟨hlen, hread⟩ := (Memory.readBytes_eq_some ..).mp hbs
  refine ⟨bs, hbs, hlen, fun k hk => ?_⟩
  rw [← hread k (by omega), Nat.zero_add]

/-- The samples of a finished DECODE or DEFILTER run (10_state.md R37; 44_defilter.md R215). -/
theorem State.Inv.samples_done {s : State} (h : s.Inv) (hp : s.phase = .done) (hcmd : s.cmdLatch ≠ .parse) :
    ∃ bs, s.samples = some bs ∧ bs.length = s.height.toNat * s.rowbytes.toNat
      ∧ ∀ k, k < bs.length → s.obuf.read k = bs[k]? := by
  obtain ⟨hlen, hcov⟩ := h.outputDone hp hcmd
  exact Memory.readBytes_of_covers (hlen ▸ hcov)

/-- A finished run has a result, by its command (10_state.md R37; 42_assembler.md R175). -/
theorem State.Inv.result_done {s : State} (h : s.Inv) (hp : s.phase = .done) : ∃ bs : List Byte,
    (s.cmdLatch = .decode ∧ s.result = some (.decoded s.imageInfo bs)
      ∨ s.cmdLatch = .defilter ∧ s.result = some (.defiltered bs)
      ∨ s.cmdLatch = .parse ∧ s.result = some (.parsed s.imageInfo s.bpp s.rowbytes bs))
    ∧ (s.cmdLatch ≠ .parse → bs.length = s.height.toNat * s.rowbytes.toNat
      ∧ ∀ k, k < bs.length → s.obuf.read k = bs[k]?)
    ∧ (s.cmdLatch = .parse → bs.length = s.zlen.toNat ∧ ∀ k, k < bs.length → s.zbuf.read k = bs[k]?) := by
  rw [State.result_done hp]
  cases hcmd : s.cmdLatch with
  | noCommand =>
    obtain ⟨-, hlatch, -⟩ := h.clause hp
    exact absurd hcmd hlatch
  | decode =>
    obtain ⟨bs, hbs, hrest⟩ := h.samples_done hp (by rw [hcmd]; exact nofun)
    exact ⟨bs, .inl ⟨rfl, by rw [State.resultOf, hbs]; rfl⟩, fun _ => hrest, nofun⟩
  | defilter =>
    obtain ⟨bs, hbs, hrest⟩ := h.samples_done hp (by rw [hcmd]; exact nofun)
    exact ⟨bs, .inr (.inl ⟨rfl, by rw [State.resultOf, hbs]; rfl⟩), fun _ => hrest, nofun⟩
  | parse =>
    obtain ⟨bs, hbs, hrest⟩ := Memory.readBytes_of_covers (h.parsedDone hp hcmd)
    exact ⟨bs, .inr (.inr ⟨rfl, by rw [State.resultOf, hbs]; rfl⟩), fun hne => absurd rfl hne, fun _ => hrest⟩

/-! ## The image description -/

section Description
variable {s : State}

/-- A transparency is described as it is stored (10_state.md R27). -/
theorem State.Inv.transparency (h : s.Inv) : s.imageInfo.transparency = s.transparencyValue := by
  cases hseen : s.trnsSeen with
  | true => exact if_pos hseen
  | false =>
    have hkind : s.trnsKind = .absent := by
      by_contra hne
      exact nomatch hseen.symm.trans (h.trnsStore.mpr hne)
    rw [State.transparencyValue, hkind]
    exact if_neg (Bool.eq_false_iff.mp hseen)

theorem State.Inv.background (h : s.Inv) : s.imageInfo.background = s.backgroundValue := by
  cases hseen : s.bkgdSeen with
  | true => exact if_pos hseen
  | false =>
    have hkind : s.bkgdKind = .absent := by
      by_contra hne
      exact nomatch hseen.symm.trans (h.bkgdStore.mpr hne)
    rw [State.backgroundValue, hkind]
    exact if_neg (Bool.eq_false_iff.mp hseen)

theorem transparencyValue_isSome : s.transparencyValue.isSome = true ↔ s.trnsKind ≠ .absent := by
  unfold State.transparencyValue
  cases s.trnsKind <;> simp

theorem backgroundValue_isSome : s.backgroundValue.isSome = true ↔ s.bkgdKind ≠ .absent := by
  unfold State.backgroundValue
  cases s.bkgdKind <;> simp

end Description

/-! ## After CLEAR -/

/-- Every register but `STATUS` and the error registers reads as before CLEAR (70_reset_and_hazards.md R261); a run that
is done has no error recorded. -/
theorem readReg_clear {s : State} (h : s.NoError) {r : Reg} (hr : r ≠ .status) : readReg r (clear s) = readReg r s := by
  obtain ⟨hkind, hcause, htag, hpos⟩ := h
  cases r
  case status => exact absurd rfl hr
  case errKind => simp only [readReg, clear_errKind, hkind]
  case errCause => simp only [readReg, clear_errCause, hcause]
  case errTag => simp only [readReg, clear_errTag, htag]
  case errPosLo => simp only [readReg, clear_errPos, hpos]
  case errPosHi => simp only [readReg, clear_errPos, hpos]
  all_goals rfl

/-- Settles O52: the result by the invariant's clause for DONE, the description by the stores, and CLEAR by what it
leaves. -/
theorem resultIsReadableExactlyWhenDone : Obligations.ResultIsReadableExactlyWhenDone := by
  intro s h
  refine ⟨fun hne => if_neg hne, fun hp => h.result_done hp, ?palette, ?transparency, ?background, rfl, rfl, rfl, rfl,
    rfl, fun hseen => if_pos hseen, fun hk => ?_, fun hk => ?_, fun hk => ?_, fun hk => ?_, fun hk => ?_, fun hk => ?_,
    fun v ms hp hh hc => ?cleared⟩
  case palette => cases hseen : s.palSeen <;> simp [State.imageInfo, hseen]
  case transparency =>
    rw [h.transparency, Bool.eq_iff_iff, transparencyValue_isSome]
    exact h.trnsStore.symm
  case background =>
    rw [h.background, Bool.eq_iff_iff, backgroundValue_isSome]
    exact h.bkgdStore.symm
  case cleared =>
    refine ⟨clear { s with host := ms }, ?_, rfl, ?_, fun r hr => ?_, fun i => ⟨rfl, rfl, rfl, rfl⟩⟩
    · rw [step_eq, stepWith_writeCtrl _ hh, writeCtrl_clear (s := { s with host := ms }) (.inl hp) hc]
    · rw [State.resultOf_clear, State.resultOf_host, State.result_done hp]
    · obtain ⟨hnone, -⟩ := h.clause hp
      rw [readOffset_offset, readOffset_offset, readReg_clear (s := { s with host := ms }) hnone hr, readReg_host]
  · rw [h.transparency, State.transparencyValue, hk]
  · rw [h.transparency, State.transparencyValue, hk]
  · rw [h.transparency, State.transparencyValue, hk]
  · rw [h.background, State.backgroundValue, hk]
  · rw [h.background, State.backgroundValue, hk]
  · rw [h.background, State.backgroundValue, hk]

end Sys2Proof.Machine
end
